-- ==== Sys2Proof/Word.lean ====
section
/-! DEFINITION. The word types of the PRESENT core (00_scope.md R5 to R8: every value is an unsigned
fixed-width integer, bit 0 least significant). -/

namespace Sys2Proof

/-- A 4-bit nibble, the width of an Sbox entry (20_memory.md R51). -/
abbrev Nibble := BitVec 4

/-- A byte of a key or a block (00_scope.md R10). -/
abbrev Byte := BitVec 8

/-- The 64-bit block, or cipher state (00_scope.md R12). -/
abbrev Block := BitVec 64

/-- A 64-bit round key (00_scope.md R5). -/
abbrev RoundKey := BitVec 64

/-- The 80-bit key register of the key schedule (41_key_schedule.md R120). -/
abbrev Key80 := BitVec 80

/-- The 128-bit key register of the key schedule (41_key_schedule.md R126). -/
abbrev Key128 := BitVec 128

/-- The 32-bit command word (30_encoding.md R74). -/
abbrev CmdWord := BitVec 32

/-- The 128-bit data-in bus (30_encoding.md R80). -/
abbrev DataIn := BitVec 128

/-- A bit position of a block, 0 to 63 (00_scope.md R8). -/
abbrev BitIndex := Fin 64

end Sys2Proof
end

