-- ==== Sys2Proof/Config.lean ====
section
/-! DEFINITION. What an implementation fixes (MAX_ROUNDS) and the values the spec leaves unspecified.
The constants without a body are free: nothing in Lean can tell their value. -/

namespace Sys2Proof

/-- How far MAX_ROUNDS lies above its lower bound of 32: 0 to 223, not fixed by the spec
(00_scope.md R5, 92_eei_decisions.md D11; log 1). -/
opaque Config.extraRounds : Fin 224

/-- MAX_ROUNDS, the OPEN parameter with 32 <= MAX_ROUNDS <= 255 (00_scope.md R5). -/
def Config.maxRounds : Nat := Config.extraRounds.val + 32

/-- Where the spec leaves a value unspecified: the registers of 10_state.md R38 and R27, and the two
response outputs while no response is held (R29). -/
inductive Config.Site where
  | ksize | rounds | rk (index : Nat) | rspStatus | rspData | cmd | din
  | stateReg | kreg | rc | statusPort | dataPort
deriving DecidableEq, Repr

/-- The free value of `w` bits that stands at a site at a tick of the model's step counter
(93_implementation_defined.md U1 to U5, treatment "any value"; log 2). -/
opaque Config.unspecified (site : Config.Site) (tick w : Nat) : BitVec w

/-- The result of the cipher over no round key at all: R170 and R173 of 43_block_cipher.md define the
cipher for R >= 1 only, and no run of the core has ROUNDS = 0 with an instance (log 12). -/
opaque Config.zeroRounds : Block → Block

end Sys2Proof
end

