-- ==== Sys2Proof/Machine/Tables.lean ====
section
/-! DEFINITION. The four constant look-up tables (40_lookup_tables.md), as the spec prints them. -/

namespace Sys2Proof.Machine

/-- The 16 entries of Sbox (40_lookup_tables.md R100). -/
def sboxTable : List Nibble :=
  [0xC, 0x5, 0x6, 0xB, 0x9, 0x0, 0xA, 0xD, 0x3, 0xE, 0xF, 0x8, 0x4, 0x7, 0x1, 0x2]

/-- The 16 entries of Sbox_inv (40_lookup_tables.md R101). -/
def sboxInvTable : List Nibble :=
  [0x5, 0xE, 0xF, 0x8, 0xC, 0x1, 0x2, 0xD, 0xB, 0x4, 0x6, 0x3, 0x0, 0x7, 0x9, 0xA]

/-- `Sbox[x]` (R100). The table has an entry for each of the 16 nibbles. -/
def sbox (x : Nibble) : Nibble := sboxTable.getD x.toNat 0

/-- `Sbox_inv[v]` (R101). -/
def sboxInv (v : Nibble) : Nibble := sboxInvTable.getD v.toNat 0

/-- The 64 entries of PBox (40_lookup_tables.md R103). The spec's source gives entries 0 and 1 only;
the rest is the spec's own general knowledge (93_implementation_defined.md G1; log 16). -/
def pboxTable : List BitIndex :=
  [0, 16, 32, 48, 1, 17, 33, 49, 2, 18, 34, 50, 3, 19, 35, 51] ++
  [4, 20, 36, 52, 5, 21, 37, 53, 6, 22, 38, 54, 7, 23, 39, 55] ++
  [8, 24, 40, 56, 9, 25, 41, 57, 10, 26, 42, 58, 11, 27, 43, 59] ++
  [12, 28, 44, 60, 13, 29, 45, 61, 14, 30, 46, 62, 15, 31, 47, 63]

/-- The 64 entries of PBox_inv (40_lookup_tables.md R105). -/
def pboxInvTable : List BitIndex :=
  [0, 4, 8, 12, 16, 20, 24, 28, 32, 36, 40, 44, 48, 52, 56, 60] ++
  [1, 5, 9, 13, 17, 21, 25, 29, 33, 37, 41, 45, 49, 53, 57, 61] ++
  [2, 6, 10, 14, 18, 22, 26, 30, 34, 38, 42, 46, 50, 54, 58, 62] ++
  [3, 7, 11, 15, 19, 23, 27, 31, 35, 39, 43, 47, 51, 55, 59, 63]

/-- `PBox[i]` (R103). The table has an entry for each of the 64 bit positions. -/
def pbox (i : BitIndex) : BitIndex := pboxTable.getD i.val 0

/-- `PBox_inv[j]` (R105). -/
def pboxInv (j : BitIndex) : BitIndex := pboxInvTable.getD j.val 0

end Sys2Proof.Machine
end

