-- ==== Sys2Proof/Machine/RoundTransforms.lean ====
section
/-! DEFINITION. The three datapath functions of a round and their inverses (42_round_transforms.md). -/

namespace Sys2Proof.Machine

/-- Nibble `k` of a block, bits `[4k+3:4k]` (00_scope.md R12). -/
def nibble (s : Block) (k : Nat) : Nibble := s.extractLsb' (4 * k) 4

/-- `t[4k+3:4k] <- n`, every other bit kept. -/
def writeNibble (t : Block) (k : Nat) (n : Nibble) : Block :=
  (t &&& ~~~(0xF#64 <<< (4 * k))) ||| (n.setWidth 64 <<< (4 * k))

/-- A 4-bit table applied to each of the 16 nibbles in place (R150). -/
def mapNibbles (f : Nibble → Nibble) (s : Block) : Block :=
  (List.range 16).foldl (fun t k => writeNibble t k (f (nibble s k))) 0

/-- `t[j] <- b`, every other bit kept. -/
def writeBit (t : Block) (j : BitIndex) (b : Bool) : Block :=
  (t &&& ~~~(1#64 <<< j.val)) ||| ((BitVec.ofBool b).setWidth 64 <<< j.val)

/-- Each input bit `i` moved to output bit `p i` (R153): `t <- 0`, then `t[p i] <- s[i]` for i = 0..63. -/
def moveBits (p : BitIndex → BitIndex) (s : Block) : Block :=
  (List.finRange 64).foldl (fun t i => writeBit t (p i) (s.getLsbD i.val)) 0

/-- SubstitutionLayer (R150). -/
def substitutionLayer (s : Block) : Block := mapNibbles sbox s

/-- SubstitutionLayer_inverse (R151). -/
def substitutionLayerInv (s : Block) : Block := mapNibbles sboxInv s

/-- PermutationLayer (R153). -/
def permutationLayer (s : Block) : Block := moveBits pbox s

/-- PermutationLayer_inverse (R154). -/
def permutationLayerInv (s : Block) : Block := moveBits pboxInv s

/-- AddRoundKey, a 64-bit XOR (R156). -/
def addRoundKey (s : Block) (k : RoundKey) : Block := s ^^^ k

/-- The encryption round: AddRoundKey, then Substitution, then Permutation (R157). -/
def encRound (s : Block) (k : RoundKey) : Block :=
  permutationLayer (substitutionLayer (addRoundKey s k))

/-- The decryption round: AddRoundKey, then the inverse Permutation, then the inverse Substitution
(R157). -/
def decRound (s : Block) (k : RoundKey) : Block :=
  substitutionLayerInv (permutationLayerInv (addRoundKey s k))

end Sys2Proof.Machine
end

