-- ==== Sys2Proof/Machine/Cipher.lean ====
section
/-! DEFINITION. The cipher as pure functions of a block and a list of round keys (43_block_cipher.md
R170, R173). -/

namespace Sys2Proof.Machine

/-- The loop of the cipher: a round under each key but the last, then the last key added. R170 and
R173 ask for at least one key; the result over none is a free value (log 12). -/
def keyedLoop (round : Block → RoundKey → Block) (s : Block) : List RoundKey → Block
  | [] => Config.zeroRounds s
  | [k] => addRoundKey s k
  | k :: k' :: ks => keyedLoop round (round s k) (k' :: ks)

/-- `Encrypt(B, rk[0..R-1])`, the keys in ascending order (R170). -/
def encryptBlock (b : Block) (rk : List RoundKey) : Block := keyedLoop encRound b rk

/-- `Decrypt(C, rk[0..R-1])`, the keys in descending order (R173). -/
def decryptBlock (c : Block) (rk : List RoundKey) : Block := keyedLoop decRound c rk.reverse

end Sys2Proof.Machine
end

