-- ==== Sys2Proof/Syntax.lean ====
section
/-! DEFINITION. The commands of the core, one constructor per row of the opcode table. -/

namespace Sys2Proof

/-- A command word's meaning (30_encoding.md R74, R75). Every constructor carries the word's other
three fields whether or not the command uses them, so that no bit of a word is lost:
`len` is LEN[11:4], `rnd` is RND[19:12], `rsv` is RSV[31:20]. -/
inductive Instr where
  /-- INIT, OP 1 (41_key_schedule.md R136). -/
  | init (len rnd : BitVec 8) (rsv : BitVec 12)
  /-- ENCRYPT, OP 2 (43_block_cipher.md R171). -/
  | encrypt (len rnd : BitVec 8) (rsv : BitVec 12)
  /-- DECRYPT, OP 3 (43_block_cipher.md R174). -/
  | decrypt (len rnd : BitVec 8) (rsv : BitVec 12)
  /-- BLOCK_SIZE, OP 4 (43_block_cipher.md R177). -/
  | blockSize (len rnd : BitVec 8) (rsv : BitVec 12)
deriving DecidableEq, Repr

end Sys2Proof
end

