-- ==== Sys2Proof/WellFormed.lean ====
section
/-! DEFINITION. What software should write: the core itself gives a meaning to every value of every
field (30_encoding.md R86), so these are rules for software and not conditions of any meaning. -/

namespace Sys2Proof

/-- Software writes zero into RSV and into the fields a command does not use
(30_encoding.md R78 and 92_eei_decisions.md D17: "Software should write zero"; the fields used are
those of R75; log 18). The machine does not check it. -/
def Instr.wellFormed : Instr → Bool
  | .init _ _ rsv => rsv == 0
  | .encrypt _ rnd rsv => rnd == 0 && rsv == 0
  | .decrypt _ rnd rsv => rnd == 0 && rsv == 0
  | .blockSize len rnd rsv => len == 0 && rnd == 0 && rsv == 0

/-- An operand of `len` bytes given as an integer has at most `8*len` bits and fits the 16 byte lanes
of `din` (30_encoding.md R80, R88). -/
def operandFits (len value : Nat) : Bool := decide (len ≤ 16) && decide (value < 2 ^ (8 * len))

/-- A round count fits the 8-bit RND field (30_encoding.md R77). -/
def roundsFit (rounds : Nat) : Bool := decide (rounds < 256)

end Sys2Proof
end

