-- ==== Sys2Proof/Decode.lean ====
section
/-! DEFINITION. The decoder of command words, total and by OP alone (30_encoding.md R74, R75, R87),
and the encoder. -/

namespace Sys2Proof

/-- OP, `cmd_word[3:0]` (30_encoding.md R74). -/
def cmdOp (w : CmdWord) : BitVec 4 := w.extractLsb' 0 4

/-- LEN, `cmd_word[11:4]` (30_encoding.md R74). -/
def cmdLen (w : CmdWord) : BitVec 8 := w.extractLsb' 4 8

/-- RND, `cmd_word[19:12]` (30_encoding.md R74). -/
def cmdRnd (w : CmdWord) : BitVec 8 := w.extractLsb' 12 8

/-- RSV, `cmd_word[31:20]` (30_encoding.md R74). -/
def cmdRsv (w : CmdWord) : BitVec 12 := w.extractLsb' 20 12

/-- Why a word is no command: its OP is 0 or 5 to 15 (30_encoding.md R86). -/
inductive DecodeError where
  | illegalOp (op : BitVec 4)
deriving DecidableEq, Repr

/-- Every 32-bit word decodes, by OP alone, to one of the four commands or is rejected by name
(30_encoding.md R75, R86, R87). -/
def decodeWord (w : CmdWord) : Except DecodeError Instr :=
  if cmdOp w = 1 then .ok (.init (cmdLen w) (cmdRnd w) (cmdRsv w))
  else if cmdOp w = 2 then .ok (.encrypt (cmdLen w) (cmdRnd w) (cmdRsv w))
  else if cmdOp w = 3 then .ok (.decrypt (cmdLen w) (cmdRnd w) (cmdRsv w))
  else if cmdOp w = 4 then .ok (.blockSize (cmdLen w) (cmdRnd w) (cmdRsv w))
  else .error (.illegalOp (cmdOp w))

/-- The command word of four fields:
`zext_32(OP) | (LEN << 4) | (RND << 12) | (RSV << 20)` (30_encoding.md R74). -/
def packWord (op : BitVec 4) (len rnd : BitVec 8) (rsv : BitVec 12) : CmdWord :=
  op.setWidth 32 ||| (len.setWidth 32 <<< 4) ||| (rnd.setWidth 32 <<< 12) ||| (rsv.setWidth 32 <<< 20)

/-- The opcode of a command (30_encoding.md R75). -/
def opcode : Instr → BitVec 4
  | .init _ _ _ => 1
  | .encrypt _ _ _ => 2
  | .decrypt _ _ _ => 3
  | .blockSize _ _ _ => 4

/-- The one word of a command (30_encoding.md R74, R75). -/
def encode : Instr → CmdWord
  | .init len rnd rsv => packWord 1 len rnd rsv
  | .encrypt len rnd rsv => packWord 2 len rnd rsv
  | .decrypt len rnd rsv => packWord 3 len rnd rsv
  | .blockSize len rnd rsv => packWord 4 len rnd rsv

/-- The word whose lowest `nbits` bits are those of `w`, every bit above them 0. A command word is one
32-bit word on the bus, so bit 0 of the table is bit 0 of `cmd_word` (30_encoding.md R74, R87; log 20). -/
def tableWord (nbits w : Nat) : CmdWord := BitVec.ofNat 32 (w % 2 ^ nbits)

/-- The command the decoder reads from an opcode-table word. -/
def decodeTableWord (nbits w : Nat) : Option Instr :=
  match decodeWord (tableWord nbits w) with
  | .ok i => some i
  | .error _ => none

end Sys2Proof
end

