-- ==== Sys2Proof/Machine/Flags.lean ====
section
/-! DEFINITION. The core has no flags (10_state.md R36): the only status is the 4-bit code of a response.
This file holds the codes, the errors with their payloads, and the checks in their order
(60_exceptions.md R200 to R208). -/

namespace Sys2Proof.Machine

/-- The six statuses of a response (60_exceptions.md R200). -/
inductive Status where
  | ok | invalidKeyLength | invalidBlockLength | invalidRounds | noKey | illegalCommand
deriving DecidableEq, Repr

/-- The 4-bit code on `rsp_status` (R200). -/
def statusCode : Status → BitVec 4
  | .ok => 0
  | .invalidKeyLength => 1
  | .invalidBlockLength => 2
  | .invalidRounds => 3
  | .noKey => 4
  | .illegalCommand => 5

/-- An error of a command, with what its payload is made of (R202 to R206). -/
inductive CmdError where
  | invalidKeyLength (len : BitVec 8)
  | invalidBlockLength (len : BitVec 8)
  | invalidRounds (rnd : BitVec 8)
  | noKey
  | illegalCommand (cmd : CmdWord)
deriving DecidableEq, Repr

/-- The status an error is reported with (R200). -/
def errorStatus : CmdError → Status
  | .invalidKeyLength _ => .invalidKeyLength
  | .invalidBlockLength _ => .invalidBlockLength
  | .invalidRounds _ => .invalidRounds
  | .noKey => .noKey
  | .illegalCommand _ => .illegalCommand

/-- The payload of an error in `rsp_data` (30_encoding.md R84, 60_exceptions.md R202 to R206). -/
def errorPayload : CmdError → BitVec 64
  | .invalidKeyLength len => len.setWidth 64
  | .invalidBlockLength len => len.setWidth 64
  | .invalidRounds rnd => rnd.setWidth 64
  | .noKey => 0
  | .illegalCommand cmd => cmd.setWidth 64

/-- A round count is legal when `1 <= RND <= MAX_ROUNDS` (30_encoding.md R77). The test against 32, the
least MAX_ROUNDS there is, stands first so that it decides every count up to 32. -/
def roundsLegal (rnd : BitVec 8) : Bool :=
  rnd != 0 && (decide (rnd.toNat ≤ 32) || decide (rnd.toNat ≤ Config.maxRounds))

/-- The checks of INIT: the key length, then the round count (60_exceptions.md R208). -/
def initCheck (len rnd : BitVec 8) : Option CmdError :=
  if len ≠ 10 ∧ len ≠ 16 then some (.invalidKeyLength len)
  else if roundsLegal rnd then none
  else some (.invalidRounds rnd)

/-- The checks of ENCRYPT and DECRYPT: the key, then the block length (60_exceptions.md R208). -/
def cipherCheck (keyValid : Bool) (len : BitVec 8) : Option CmdError :=
  if keyValid = false then some .noKey
  else if len ≠ 8 then some (.invalidBlockLength len)
  else none

end Sys2Proof.Machine
end

