-- ==== Sys2Proof/Machine/KeySchedule.lean ====
section
/-! DEFINITION. The 80-bit and 128-bit key schedules (41_key_schedule.md R120 to R132), as pure
functions. -/

namespace Sys2Proof.Machine

/-- The salt of iteration `i`, the counter masked to 5 bits: `i & 0x1F` (R132; the mask in both
variants is the spec's decision D33, D35; log 17). -/
def salt (i : Nat) : BitVec 5 := BitVec.ofNat 5 (i &&& 0x1F)

/-- KS80 step 1: the emitted key, `K80[79:16]` (R121). -/
def emit80 (k : Key80) : RoundKey := k.extractLsb' 16 64

/-- KS80 step 2: `{K80[18:0], K80[79:19]}`, a rotation left by 61 (R122). -/
def rotate80 (k : Key80) : Key80 := k.extractLsb' 0 19 ++ k.extractLsb' 19 61

/-- KS80 step 3: `K80[79:76] <- Sbox[K80[79:76]]` (R123). -/
def substitute80 (k : Key80) : Key80 := sbox (k.extractLsb' 76 4) ++ k.extractLsb' 0 76

/-- KS80 step 4: `K80 <- K80 ^ ((i & 0x1F) << 15)` (R124). -/
def salt80 (k : Key80) (i : Nat) : Key80 := k ^^^ ((salt i).setWidth 80 <<< 15)

/-- Steps 2 to 4 of one KS80 iteration, in their order (R120, R125). -/
def update80 (k : Key80) (i : Nat) : Key80 := salt80 (substitute80 (rotate80 k)) i

/-- KS128 step 1: the emitted key, `K128[127:64]` (R126). -/
def emit128 (k : Key128) : RoundKey := k.extractLsb' 64 64

/-- KS128 step 2: `{K128[66:0], K128[127:67]}`, a rotation left by 61 (R127). -/
def rotate128 (k : Key128) : Key128 := k.extractLsb' 0 67 ++ k.extractLsb' 67 61

/-- KS128 step 3: Sbox on `K128[127:124]` and on `K128[123:120]` (R128). -/
def substitute128 (k : Key128) : Key128 :=
  sbox (k.extractLsb' 124 4) ++ (sbox (k.extractLsb' 120 4) ++ k.extractLsb' 0 120)

/-- KS128 step 4: `K128[66:62] <- K128[66:62] ^ (i & 0x1F)` (R129). -/
def salt128 (k : Key128) (i : Nat) : Key128 := k ^^^ ((salt i).setWidth 128 <<< 62)

/-- Steps 2 to 4 of one KS128 iteration, in their order (R126, R130). -/
def update128 (k : Key128) (i : Nat) : Key128 := salt128 (substitute128 (rotate128 k)) i

/-- The loop both schedules share (R120, R126): `n` iterations from counter `i` on, each emitting a
key and then updating the register. -/
def scheduleFrom {w : Nat} (emit : BitVec w → RoundKey) (update : BitVec w → Nat → BitVec w)
    (k : BitVec w) (i : Nat) : Nat → List RoundKey
  | 0 => []
  | n + 1 => emit k :: scheduleFrom emit update (update k i) (i + 1) n

/-- The register after `n` iterations from counter `i` on. -/
def registerFrom {w : Nat} (update : BitVec w → Nat → BitVec w)
    (k : BitVec w) (i : Nat) : Nat → BitVec w
  | 0 => k
  | n + 1 => registerFrom update (update k i) (i + 1) n

/-- `KS80(K, R)`: the R round keys of an 80-bit key (R120, R125). -/
def ks80 (k : Key80) (r : Nat) : List RoundKey := scheduleFrom emit80 update80 k 1 r

/-- `KS128(K, R)`: the R round keys of a 128-bit key (R126, R130). -/
def ks128 (k : Key128) (r : Nat) : List RoundKey := scheduleFrom emit128 update128 k 1 r

end Sys2Proof.Machine
end

