-- ==== Sys2Proof/Machine/Operands.lean ====
section
/-! DEFINITION. Operand assembly on the 128-bit data-in bus and the 64-bit response bus
(30_encoding.md R80 to R83), and the big-endian conversions (00_scope.md R10). -/

namespace Sys2Proof.Machine

/-- The integer of a byte sequence, byte 0 most significant (00_scope.md R10). -/
def bytesToNat (bs : List Byte) : Nat := bs.foldl (fun n b => n * 256 + b.toNat) 0

/-- The `n` bytes of an integer, byte 0 most significant (00_scope.md R10). -/
def natToBytes : Nat → Nat → List Byte
  | 0, _ => []
  | n + 1, v => BitVec.ofNat 8 (v / 256 ^ n) :: natToBytes n v

/-- Byte lane `j`, `din[127-8j : 120-8j]` (30_encoding.md R80). -/
def lane (d : DataIn) (j : Nat) : Byte := d.extractLsb' (120 - 8 * j) 8

/-- The bytes of lanes 0 to `n-1`, lane 0 first (R80). -/
def lanes (d : DataIn) (n : Nat) : List Byte := (List.range n).map (lane d)

/-- The bus with the given bytes in lanes 0, 1, …, and zero in the lanes after them (R80, R88). A
sequence longer than 16 bytes fills the 16 lanes with its first 16 bytes. -/
def lanesOf (bs : List Byte) : DataIn :=
  BitVec.ofNat 128 (bytesToNat ((bs ++ List.replicate 16 0).take 16))

/-- The 80-bit key operand of INIT, `DIN[127:48]` (R81). -/
def keyOperand80 (d : DataIn) : Key80 := d.extractLsb' 48 80

/-- The 128-bit key operand of INIT, `DIN[127:0]` (R81). -/
def keyOperand128 (d : DataIn) : Key128 := d

/-- The block operand of ENCRYPT and DECRYPT, `DIN[127:64]` (R82). -/
def blockOperand (d : DataIn) : Block := d.extractLsb' 64 64

/-- Output byte `j` of the result, `rsp_data[63-8j : 56-8j]` (R83). -/
def resultByte (r : BitVec 64) (j : Nat) : Byte := r.extractLsb' (56 - 8 * j) 8

/-- The round keys a successful INIT with key length `len` and round count `r` emits: the 80-bit
variant when LEN = 10, else the 128-bit variant (41_key_schedule.md R133, R134, R136). -/
def initKeys (len : BitVec 8) (d : DataIn) (r : Nat) : List RoundKey :=
  if len = 10 then ks80 (keyOperand80 d) r else ks128 (keyOperand128 d) r

/-- KSIZE for a key length: 0 for 10 bytes, 1 for 16 (41_key_schedule.md R133). -/
def initKsize (len : BitVec 8) : BitVec 1 := if len = 10 then 0 else 1

end Sys2Proof.Machine
end

