-- ==== Sys2Proof/Machine/State.lean ====
section
/-! DEFINITION. Everything the spec gives the machine (10_state.md), as plain data, and the state right
after reset. -/

namespace Sys2Proof.Machine

/-- The sequencer's control state (10_state.md R34). `decode` is the sub-state the spec leaves
unnamed, in which an accepted command is decoded and checked (R34, 43_block_cipher.md R184; log 8). -/
inductive Fsm where
  | idle | decode | ks | enc | dec | resp
deriving DecidableEq, Repr

/-- The interface phase (10_state.md R28). -/
inductive Phase where
  | idle | busy | resp
deriving DecidableEq, Repr

/-- What a busy core does at one clock edge. The spec leaves the latency and the sequencer's structure
to the implementation (70_reset_and_hazards.md R250, 43_block_cipher.md R185), so the model takes the
pace from its script (log 6): `hold` shows no progress, `seq` makes one step of the reference
sequencer, `finish` completes the command. -/
inductive Pace where
  | hold | seq | finish
deriving DecidableEq, Repr

/-- One rising edge of `clk` as seen from outside: the values of the input ports at that edge
(30_encoding.md R70), and the model's own pace of a busy core. The defaults are a quiet edge:
no reset, no command, no response taken. -/
structure Edge where
  /-- `rst` -/
  rst : Bool := false
  /-- `cmd_valid` -/
  cmdValid : Bool := false
  /-- `cmd_word` -/
  cmdWord : CmdWord := 0
  /-- `din` -/
  din : DataIn := 0
  /-- `rsp_ready` -/
  rspReady : Bool := false
  /-- the pace of a busy core (the model's own) -/
  pace : Pace := .finish
deriving DecidableEq, Repr

/-- The state of the core. PHASE is the view of `fsm` that 10_state.md R34 defines (log 8). -/
structure State where
  /-- KEY_VALID (R22) -/
  keyValid : Bool
  /-- KSIZE: 0 for an 80-bit key, 1 for a 128-bit key (R23) -/
  ksize : BitVec 1
  /-- ROUNDS (R24) -/
  rounds : BitVec 8
  /-- RK[0..MAX_ROUNDS-1], entry 0 first (R25) -/
  rk : List RoundKey
  /-- FSM (R34) -/
  fsm : Fsm
  /-- RSP_STATUS (R29) -/
  rspStatus : BitVec 4
  /-- RSP_DATA (R29) -/
  rspData : BitVec 64
  /-- CMD, the latched command word (R30) -/
  cmd : CmdWord
  /-- DIN, the latched data-in bus (R30) -/
  din : DataIn
  /-- STATE, the working block register (R31) -/
  stateReg : Block
  /-- KREG, the key register (R32) -/
  kreg : BitVec 128
  /-- RC, the sequencer's counter (R33) -/
  rc : BitVec 8
  /-- the model's own: reset has been applied since power-up (70_reset_and_hazards.md R234; log 13) -/
  resetApplied : Bool
  /-- the model's own: what the host drives at the coming edges, next one first (log 5) -/
  script : List Edge
  /-- the model's own: counts steps, only to index free values (log 2) -/
  tick : Nat
deriving DecidableEq, Repr

/-- Why the machine stops with a fault: never. Every error of the core is the status of a response
(60_exceptions.md R209), so no path of the model raises a fault. -/
inductive Fault where
deriving DecidableEq, Repr

/-- Why a step has no meaning. -/
inductive Refusal where
  /-- Raised by `exec` for a command that has no meaning yet; no arm raises it. Safe. -/
  | notModelled (mnemonic : String)
  /-- Raised by `step` at an edge with `rst = 0` when no reset was applied since power-up: the spec
  leaves the behaviour unspecified and asks a model to refuse it (70_reset_and_hazards.md R234, R241,
  93_implementation_defined.md U4; log 13). Safe. -/
  | beforeFirstReset
deriving DecidableEq, Repr

/-- The machine right after reset (10_state.md R38): KEY_VALID 0, FSM (and so PHASE) IDLE. The spec
gives the other registers no reset value; they are 0 here (DESIGN CHOICE, log 3). -/
def State.reset : State where
  keyValid := false
  ksize := 0
  rounds := 0
  rk := List.replicate Config.maxRounds 0
  fsm := .idle
  rspStatus := 0
  rspData := 0
  cmd := 0
  din := 0
  stateReg := 0
  kreg := 0
  rc := 0
  resetApplied := true
  script := []
  tick := 0

end Sys2Proof.Machine
end

