-- ==== Sys2Proof/Machine/Ops.lean ====
section
/-! DEFINITION. The named operations over the state: the phase and the output ports, the handshakes, the
response, raising an error, reset, and the round-key store. -/

namespace Sys2Proof.Machine

/-- PHASE as a view of FSM (10_state.md R34). -/
def phaseOf : Fsm → Phase
  | .idle => .idle
  | .decode => .busy
  | .ks => .busy
  | .enc => .busy
  | .dec => .busy
  | .resp => .resp

/-- PHASE (10_state.md R28, R34). -/
def phase (s : State) : Phase := phaseOf s.fsm

/-- The output `cmd_ready`: 1 iff PHASE = IDLE (30_encoding.md R70, R71). -/
def cmdReady (s : State) : Bool := decide (phase s = .idle)

/-- The output `rsp_valid`: 1 iff PHASE = RESP (30_encoding.md R70, R71). -/
def rspValid (s : State) : Bool := decide (phase s = .resp)

/-- The output `rsp_status`: the response register while PHASE = RESP, else a free value
(10_state.md R29; log 14). -/
def rspStatusPort (s : State) : BitVec 4 :=
  if phase s = .resp then s.rspStatus else Config.unspecified .statusPort s.tick 4

/-- The output `rsp_data`: the response register while PHASE = RESP, else a free value
(10_state.md R29; log 14). -/
def rspDataPort (s : State) : BitVec 64 :=
  if phase s = .resp then s.rspData else Config.unspecified .dataPort s.tick 64

/-- What the host drives at the next edge: the head of the script, or a quiet edge (log 5). -/
def nextEdge (s : State) : Edge := s.script.headD {}

/-- The state with the next edge taken off the script and the step counted (log 2, log 5). -/
def advance (s : State) : State := { s with script := s.script.tail, tick := s.tick + 1 }

/-- A command accepted: `CMD <- cmd_word`, `DIN <- din`, `PHASE <- BUSY`, in the sub-state that decodes
it (30_encoding.md R72, 43_block_cipher.md R184). -/
def accept (w : CmdWord) (d : DataIn) (s : State) : State :=
  { s with cmd := w, din := d, fsm := .decode }

/-- A response consumed: `PHASE <- IDLE` (30_encoding.md R73). It is the only return there is, after
an error too (60_exceptions.md R210). -/
def consume (s : State) : State := { s with fsm := .idle }

/-- `respond(status, data)`: the last action of a command (30_encoding.md R85). -/
def respond (st : Status) (data : BitVec 64) (s : State) : State :=
  { s with rspStatus := statusCode st, rspData := data, fsm := .resp }

/-- `raise <Error>(payload)`: ends the command with the error's status and payload and writes nothing
but the response (00_scope.md R9, 60_exceptions.md R207). There is no trap: no state is saved and no
handler is entered (R209). -/
def raise (e : CmdError) (s : State) : State := respond (errorStatus e) (errorPayload e) s

/-- A command whose OP is 0 or 5 to 15: IllegalCommand with the latched command word
(60_exceptions.md R205). -/
def illegalCommand (s : State) : State := raise (.illegalCommand s.cmd) s

/-- The entries `from`, …, `from + n - 1` of RK as unspecified values (10_state.md R27, R38). -/
def unspecifiedKeys (tick start n : Nat) : List RoundKey :=
  (List.range n).map fun k => Config.unspecified (.rk (start + k)) tick 64

/-- Reading `RK[j]` (20_memory.md R52). An index outside the store, which no command reaches, reads as
a free value (log 12). -/
def rkRead (s : State) (j : Nat) : RoundKey := s.rk.getD j (Config.unspecified (.rk j) s.tick 64)

/-- `RK[0], …, RK[ROUNDS-1]`, the keys of the cipher instance (10_state.md R26). -/
def instanceKeys (s : State) : List RoundKey := (List.range s.rounds.toNat).map (rkRead s)

/-- `RK[j] <- k` (20_memory.md R52). -/
def rkWrite (j : Nat) (k : RoundKey) (s : State) : State := { s with rk := s.rk.set j k }

/-- `RK[j] <- ks[j]` for every j below the length of the list, the other entries kept
(41_key_schedule.md R136). -/
def rkWriteAll (ks : List RoundKey) (s : State) : State :=
  { s with rk := ks ++ s.rk.drop ks.length }

/-- The end of a successful INIT (41_key_schedule.md R136, R139): ROUNDS, KSIZE and KEY_VALID are
written and the response is `(OK, 0)`. `RK[ROUNDS..MAX_ROUNDS-1]` become unspecified (R134; log 11),
and so do KREG and RC (10_state.md R32, R33; log 10). -/
def finishInit (ksize : BitVec 1) (r : BitVec 8) (s : State) : State :=
  respond .ok 0
    { s with
      rk := s.rk.take r.toNat ++ unspecifiedKeys s.tick r.toNat (Config.maxRounds - r.toNat)
      rounds := r
      ksize := ksize
      keyValid := true
      kreg := Config.unspecified .kreg s.tick 128
      rc := Config.unspecified .rc s.tick 8 }

/-- The end of a successful ENCRYPT or DECRYPT: the response is `(OK, result)` (43_block_cipher.md
R171, R174). STATE and RC become unspecified (10_state.md R31, R33; log 10). -/
def finishCipher (result : Block) (s : State) : State :=
  respond .ok result
    { s with
      stateReg := Config.unspecified .stateReg s.tick 64
      rc := Config.unspecified .rc s.tick 8 }

/-- An edge with `rst = 1` (70_reset_and_hazards.md R230): PHASE and FSM IDLE, KEY_VALID 0, and every
other register unspecified, that is, free (log 4). The command in progress is aborted and a held
response discarded (R231, R232). The host's script goes on. -/
def resetEdge (s : State) : State where
  keyValid := false
  ksize := Config.unspecified .ksize s.tick 1
  rounds := Config.unspecified .rounds s.tick 8
  rk := unspecifiedKeys s.tick 0 Config.maxRounds
  fsm := .idle
  rspStatus := Config.unspecified .rspStatus s.tick 4
  rspData := Config.unspecified .rspData s.tick 64
  cmd := Config.unspecified .cmd s.tick 32
  din := Config.unspecified .din s.tick 128
  stateReg := Config.unspecified .stateReg s.tick 64
  kreg := Config.unspecified .kreg s.tick 128
  rc := Config.unspecified .rc s.tick 8
  resetApplied := true
  script := s.script
  tick := s.tick

/-- The core at power-up, before any reset, with whatever the registers hold (70_reset_and_hazards.md
R234; log 13). -/
def powerUp (s : State) : State := { s with resetApplied := false }

/-- The state in which a command word stands where the next step takes its command from: latched in
CMD with the core BUSY, and the next edge one that finishes it (log 7). -/
def placeCommand (w : CmdWord) (s : State) : State :=
  { s with cmd := w, fsm := .decode, resetApplied := true, script := {} :: s.script }

end Sys2Proof.Machine
end

