-- ==== Sys2Proof/Machine/CipherCommands.lean ====
section
/-! DEFINITION. ENCRYPT and DECRYPT (43_block_cipher.md R171, R174). -/

namespace Sys2Proof.Machine

/-- What ENCRYPT and DECRYPT share: the checks, then the result of the cipher function on the block
operand under the instance's keys (R171, R174). -/
def cipherCommand (cipher : Block → List RoundKey → Block) (len : BitVec 8) (s : State) :
    Host.Outcome State Fault Refusal :=
  match cipherCheck s.keyValid len with
  | some e => .next (raise e s)
  | none => .next (finishCipher (cipher (blockOperand s.din) (instanceKeys s)) s)

/-- ENCRYPT (R171). RND and RSV are ignored (30_encoding.md R78, R79). -/
def execEncrypt (len _rnd : BitVec 8) (_rsv : BitVec 12) (s : State) :
    Host.Outcome State Fault Refusal := cipherCommand encryptBlock len s

/-- DECRYPT (R174). RND and RSV are ignored (30_encoding.md R78, R79). -/
def execDecrypt (len _rnd : BitVec 8) (_rsv : BitVec 12) (s : State) :
    Host.Outcome State Fault Refusal := cipherCommand decryptBlock len s

end Sys2Proof.Machine
end

