-- ==== Sys2Proof/Machine/InitCommand.lean ====
section
/-! DEFINITION. INIT (41_key_schedule.md R133 to R141). -/

namespace Sys2Proof.Machine

/-- INIT (R136): the checks, the key schedule, the instance, the response. RSV is ignored
(30_encoding.md R78). -/
def execInit (len rnd : BitVec 8) (_rsv : BitVec 12) (s : State) :
    Host.Outcome State Fault Refusal :=
  match initCheck len rnd with
  | some e => .next (raise e s)
  | none => .next (finishInit (initKsize len) rnd (rkWriteAll (initKeys len s.din rnd.toNat) s))

end Sys2Proof.Machine
end

