-- ==== Sys2Proof/Machine/QueryCommands.lean ====
section
/-! DEFINITION. BLOCK_SIZE (43_block_cipher.md R177). -/

namespace Sys2Proof.Machine

/-- The response of BLOCK_SIZE: `respond(OK, zext_64(8))` (R177). -/
def respondBlockSize (s : State) : State := respond .ok 8 s

/-- BLOCK_SIZE (R177), whether or not an instance exists. Every other field is ignored
(30_encoding.md R79). -/
def execBlockSize (_len _rnd : BitVec 8) (_rsv : BitVec 12) (s : State) :
    Host.Outcome State Fault Refusal := .next (respondBlockSize s)

end Sys2Proof.Machine
end

