-- ==== Sys2Proof/Machine/Dispatch.lean ====
section
/-! DEFINITION. One arm per command. -/

namespace Sys2Proof.Machine

def exec (i : Instr) (s : State) : Host.Outcome State Fault Refusal :=
  match i with
  | .init len rnd rsv => Sys2Proof.Machine.execInit len rnd rsv s
  | .encrypt len rnd rsv => Sys2Proof.Machine.execEncrypt len rnd rsv s
  | .decrypt len rnd rsv => Sys2Proof.Machine.execDecrypt len rnd rsv s
  | .blockSize len rnd rsv => Sys2Proof.Machine.execBlockSize len rnd rsv s

end Sys2Proof.Machine
end

