-- ==== Sys2Proof/Machine/Sequencer.lean ====
section
/-! DEFINITION. The reference sequencer, one step per call (41_key_schedule.md R139, 43_block_cipher.md
R184, R185). Only its results are normative, and they are those of the commands' meanings. -/

namespace Sys2Proof.Machine

/-- The KREG of the 80-bit variant is `KREG[79:0]`; `KREG[127:80]` is neither read nor written
(10_state.md R32; log 15). -/
def kregWrite80 (k : Key80) (kreg : BitVec 128) : BitVec 128 := kreg.extractLsb' 80 48 ++ k

/-- Entry to `KS`: `KREG <- K` and `RC <- 1` (R139). The variant is the latched LEN's (R133; log 9). -/
def enterKs (len : BitVec 8) (s : State) : State :=
  { s with
    kreg := if len = 10 then kregWrite80 (keyOperand80 s.din) s.kreg else keyOperand128 s.din
    rc := 1
    fsm := .ks }

/-- Entry to `ENC` or `DEC`: `STATE <- DIN[127:64]` and `RC <- 0` (R185). -/
def enterCipher (f : Fsm) (s : State) : State :=
  { s with stateReg := blockOperand s.din, rc := 0, fsm := f }

/-- The decode step: the checks of R208, then the state the command runs in, or the response of a
failed check or of BLOCK_SIZE at once (R184). -/
def seqDecode (s : State) : State :=
  match decodeWord s.cmd with
  | .error _ => illegalCommand s
  | .ok (.init len rnd _) =>
    match initCheck len rnd with
    | some e => raise e s
    | none => enterKs len s
  | .ok (.encrypt len _ _) =>
    match cipherCheck s.keyValid len with
    | some e => raise e s
    | none => enterCipher .enc s
  | .ok (.decrypt len _ _) =>
    match cipherCheck s.keyValid len with
    | some e => raise e s
    | none => enterCipher .dec s
  | .ok (.blockSize _ _ _) => respondBlockSize s

/-- One iteration's emission and register update with `i = RC` (R139, R125, R130). The trailing update
of the last iteration is performed; R135 says that it cannot be observed. -/
def ksIteration (s : State) : State :=
  if cmdLen s.cmd = 10 then
    rkWrite (s.rc.toNat - 1) (emit80 (s.kreg.extractLsb' 0 80))
      { s with kreg := kregWrite80 (update80 (s.kreg.extractLsb' 0 80) s.rc.toNat) s.kreg }
  else
    rkWrite (s.rc.toNat - 1) (emit128 s.kreg)
      { s with kreg := update128 s.kreg s.rc.toNat }

/-- One `KS` step: an iteration, and then either the next RC or, when RC = R, the end of the command
(R139). -/
def seqKs (s : State) : State :=
  if s.rc = cmdRnd s.cmd then
    finishInit (initKsize (cmdLen s.cmd)) (cmdRnd s.cmd) (ksIteration s)
  else
    { ksIteration s with rc := s.rc + 1 }

/-- One `ENC` or `DEC` step (R185): a round while `RC <= ROUNDS-2`, else the final key addition and the
response. `loopKey` and `lastKey` are the store indices read. An instance with ROUNDS = 0, which no
run has, answers a free value (log 12). -/
def seqCipher (round : Block → RoundKey → Block) (loopKey lastKey : Nat) (s : State) : State :=
  if s.rc.toNat + 1 < s.rounds.toNat then
    { s with stateReg := round s.stateReg (rkRead s loopKey), rc := s.rc + 1 }
  else if s.rounds = 0 then finishCipher (Config.zeroRounds s.stateReg) s
  else finishCipher (addRoundKey s.stateReg (rkRead s lastKey)) s

/-- An `ENC` step: key `RK[RC]`, at the end `RK[ROUNDS-1]` (R185, R182). -/
def seqEnc (s : State) : State := seqCipher encRound s.rc.toNat (s.rounds.toNat - 1) s

/-- A `DEC` step: key `RK[ROUNDS-1-RC]`, at the end `RK[0]` (R185, R182). -/
def seqDec (s : State) : State := seqCipher decRound (s.rounds.toNat - 1 - s.rc.toNat) 0 s

/-- One step of the sequencer of a busy core (R184). In IDLE and RESP it waits. -/
def sequencerStep (s : State) : State :=
  match s.fsm with
  | .idle => s
  | .decode => seqDecode s
  | .ks => seqKs s
  | .enc => seqEnc s
  | .dec => seqDec s
  | .resp => s

end Sys2Proof.Machine
end

