-- ==== Sys2Proof/Machine/ClockEdge.lean ====
section
/-! DEFINITION. One rising edge of the clock (30_encoding.md R71 to R73, 70_reset_and_hazards.md R230). -/

namespace Sys2Proof.Machine

/-- The latched command decoded and run to its response, as one atomic transformation
(92_eei_decisions.md D1, 10_state.md R35). -/
def runLatched (s : State) : Host.Outcome State Fault Refusal :=
  match decodeWord s.cmd with
  | .ok i => exec i s
  | .error _ => .next (illegalCommand s)

/-- An edge of a busy core, at the pace the script gives (log 6). -/
def busyEdge (p : Pace) (s : State) : Host.Outcome State Fault Refusal :=
  match p with
  | .hold => .next s
  | .seq => .next (sequencerStep s)
  | .finish => runLatched s

/-- One rising edge with the inputs `e`. Reset wins over every handshake (70_reset_and_hazards.md R230).
Before the first reset the behaviour is unspecified (R234; log 13). A command is accepted only in IDLE
and a response consumed only in RESP (30_encoding.md R72, R73). -/
def clockEdge (e : Edge) (s : State) : Host.Outcome State Fault Refusal :=
  if e.rst then .next (resetEdge s)
  else if s.resetApplied then
    match phase s with
    | .idle => .next (if e.cmdValid then accept e.cmdWord e.din s else s)
    | .busy => busyEdge e.pace s
    | .resp => .next (if e.rspReady then consume s else s)
  else .refused .beforeFirstReset

end Sys2Proof.Machine
end

