-- ==== Sys2Proof/Machine/Step.lean ====
section
/-! DEFINITION. One step of the machine, and the placing of a command word where the next step takes its
command from. -/

namespace Sys2Proof.Machine

/-- One step is one rising edge of `clk` with the inputs of the script's next edge (log 5). -/
def step (s : State) : Host.Outcome State Fault Refusal := clockEdge (nextEdge s) (advance s)

/-- The state whose next step runs exactly the command of an opcode-table word (log 7). -/
def State.withFetchWord (s : State) (nbits w : Nat) : State := placeCommand (tableWord nbits w) s

end Sys2Proof.Machine
end

