-- ==== Sys2Proof/Machine/Assembler.lean ====
section
/-! DEFINITION. The host's side: the textual commands and their defaults (30_encoding.md R88), what the
host drives for a program, and the host's duty for lengths LEN cannot encode (70_reset_and_hazards.md
R241). -/

namespace Sys2Proof.Machine

/-- A line of a program (30_encoding.md R88). Operands are integers; `none` is an omitted `rounds=` or
`len=`. -/
inductive Asm where
  | init (key len : Nat) (rounds : Option Nat)
  | init80 (key : Nat) (rounds : Option Nat)
  | init128 (key : Nat) (rounds : Option Nat)
  | encrypt (blk : Nat) (len : Option Nat)
  | decrypt (blk : Nat) (len : Option Nat)
  | blockSize
  | raw (cmd : CmdWord) (din : DataIn)
  | reset
deriving DecidableEq, Repr

/-- An operand of `len` bytes, big-endian in lanes 0 to `len-1`, zeros in the other lanes (R88). For an
ENCRYPT or DECRYPT whose length is not 8 the spec's texts differ: 95_test_vectors.md P2 step 6 leaves a
block of `len=16` in lanes 0 to 7. The model follows R88's text (DESIGN CHOICE, log 22); the core does not
read the bus of such a command (60_exceptions.md R203). -/
def placeOperand (len value : Nat) : DataIn := BitVec.ofNat 128 (value * 2 ^ (128 - 8 * len))

/-- The word and bus of an INIT line; an omitted round count is 32 (R88). -/
def assembleInit (key len : Nat) (rounds : Option Nat) : Option (CmdWord × DataIn) :=
  if operandFits len key && roundsFit (rounds.getD 32) then
    some (encode (.init (BitVec.ofNat 8 len) (BitVec.ofNat 8 (rounds.getD 32)) 0), placeOperand len key)
  else none

/-- The word and bus of an ENCRYPT or DECRYPT line; an omitted length is 8 (R88; other lengths log 22). -/
def assembleCipher (mk : BitVec 8 → Instr) (blk : Nat) (len : Option Nat) :
    Option (CmdWord × DataIn) :=
  if operandFits (len.getD 8) blk then
    some (encode (mk (BitVec.ofNat 8 (len.getD 8))), placeOperand (len.getD 8) blk)
  else none

/-- The command word and data-in bus of a line (R88); none for RESET, which is no command, and for an
operand that does not fit its field or its lanes (log 19). -/
def assemble : Asm → Option (CmdWord × DataIn)
  | .init key len rounds => assembleInit key len rounds
  | .init80 key rounds => assembleInit key 10 rounds
  | .init128 key rounds => assembleInit key 16 rounds
  | .encrypt blk len => assembleCipher (fun l => .encrypt l 0 0) blk len
  | .decrypt blk len => assembleCipher (fun l => .decrypt l 0 0) blk len
  | .blockSize => some (encode (.blockSize 0 0 0), 0)
  | .raw cmd din => some (cmd, din)
  | .reset => none

/-- What the host drives for one command: present it until it is accepted, let it finish, take the
response (30_encoding.md R72, R73; each at the first edge that can do it). -/
def driveCommand (w : CmdWord) (d : DataIn) : List Edge :=
  [{ cmdValid := true, cmdWord := w, din := d }, {}, { rspReady := true }]

/-- What the host drives for one line; RESET is one cycle with `rst = 1` (R88). -/
def driveLine (a : Asm) : Option (List Edge) :=
  if a = .reset then some [{ rst := true }]
  else (assemble a).map fun p => driveCommand p.1 p.2

/-- What the host drives for a program. -/
def driveProgram : List Asm → Option (List Edge)
  | [] => some []
  | a :: as =>
    match driveLine a, driveProgram as with
    | some e, some es => some (e ++ es)
    | _, _ => none

/-- The host calling `new(key_bytes, rounds)`: a key length above 255 is the host's own
InvalidKeyLength, without a command (30_encoding.md R76); any other is presented to the core. -/
def hostNew (key : List Byte) (rounds : BitVec 8 := 32) : Except Status (CmdWord × DataIn) :=
  if key.length ≤ 255 then .ok (encode (.init (BitVec.ofNat 8 key.length) rounds 0), lanesOf key)
  else .error .invalidKeyLength

/-- The host calling `encrypt(block)` (30_encoding.md R76). -/
def hostEncrypt (block : List Byte) : Except Status (CmdWord × DataIn) :=
  if block.length ≤ 255 then .ok (encode (.encrypt (BitVec.ofNat 8 block.length) 0 0), lanesOf block)
  else .error .invalidBlockLength

/-- The host calling `decrypt(block)` (30_encoding.md R76). -/
def hostDecrypt (block : List Byte) : Except Status (CmdWord × DataIn) :=
  if block.length ≤ 255 then .ok (encode (.decrypt (BitVec.ofNat 8 block.length) 0 0), lanesOf block)
  else .error .invalidBlockLength

end Sys2Proof.Machine
end

