-- ==== Sys2Proof/Machine/Observe.lean ====
section
/-! DEFINITION. What a run shows (70_reset_and_hazards.md R242). -/

namespace Sys2Proof.Machine

/-- `n` steps, stopping at the first refusal. -/
def runSteps : Nat → State → Host.Outcome State Fault Refusal
  | 0, s => .next s
  | n + 1, s =>
    match step s with
    | .next t => runSteps n t
    | .fault r => .fault r
    | .refused r => .refused r

/-- The response that the next edge consumes, if it consumes one (30_encoding.md R73). -/
def responseTaken (s : State) : Option (BitVec 4 × BitVec 64) :=
  if (nextEdge s).rst = false ∧ s.resetApplied = true ∧ rspValid s = true ∧ (nextEdge s).rspReady = true
  then some (rspStatusPort s, rspDataPort s) else none

/-- The responses consumed in the next `n` edges, in order (R242). -/
def observe : Nat → State → List (BitVec 4 × BitVec 64)
  | 0, _ => []
  | n + 1, s =>
    match step s with
    | .next t => (responseTaken s).toList ++ observe n t
    | .fault _ => []
    | .refused _ => []

/-- A run has ended: nothing of the script is left and the core is IDLE. When the last edge consumes the
last command's response, that is R242's end. R242 does not say when a run ends whose last command a reset
aborted or whose held response a reset discarded (R231, R232), nor whether edges after the last response
was consumed (idle edges, a reset) belong to the run. Here all edges of the script do, so a trailing reset
shows in `finalView` (DESIGN CHOICE, log 23). -/
def endOfRun (s : State) : Bool := s.script.isEmpty && cmdReady s

/-- The state part of a run's observation: KEY_VALID, ROUNDS and the keys of the instance (R242, which
says nothing about entries at or beyond ROUNDS). -/
def finalView (s : State) : Bool × BitVec 8 × List RoundKey := (s.keyValid, s.rounds, instanceKeys s)

end Sys2Proof.Machine
end

