-- ==== Sys2Proof/Safety.lean ====
section
/-! DEFINITION. What holds of every state a run reaches. -/

namespace Sys2Proof.Machine

/-- The keys of the instance are a key schedule of some master key, of the size KSIZE says
(10_state.md R26; the master key itself is not retained, R32). -/
def KeysScheduled (s : State) : Prop :=
  (s.ksize = 0 ∧ ∃ k : Key80, instanceKeys s = ks80 k s.rounds.toNat) ∨
  (s.ksize = 1 ∧ ∃ k : Key128, instanceKeys s = ks128 k s.rounds.toNat)

/-- A core in `KS` is running a valid INIT: the iterations before RC are done
(41_key_schedule.md R139). -/
structure KsProgress (s : State) : Prop where
  op : cmdOp s.cmd = 1
  checked : initCheck (cmdLen s.cmd) (cmdRnd s.cmd) = none
  counter : 1 ≤ s.rc.toNat ∧ s.rc.toNat ≤ (cmdRnd s.cmd).toNat
  emitted : s.rk.take (s.rc.toNat - 1) = initKeys (cmdLen s.cmd) s.din (s.rc.toNat - 1)
  register80 : cmdLen s.cmd = 10 →
    s.kreg.extractLsb' 0 80 = registerFrom update80 (keyOperand80 s.din) 1 (s.rc.toNat - 1)
  register128 : cmdLen s.cmd ≠ 10 →
    s.kreg = registerFrom update128 (keyOperand128 s.din) 1 (s.rc.toNat - 1)

/-- A core in `ENC` or `DEC` is running a valid command of that kind: the rounds before RC are done
(43_block_cipher.md R185). -/
structure CipherProgress (op : BitVec 4) (round : Block → RoundKey → Block) (keys : List RoundKey)
    (s : State) : Prop where
  op : cmdOp s.cmd = op
  checked : cipherCheck s.keyValid (cmdLen s.cmd) = none
  counter : s.rc.toNat < s.rounds.toNat
  block : s.stateReg = (keys.take s.rc.toNat).foldl round (blockOperand s.din)

/-- The invariant of the core. -/
structure CoreInv (s : State) : Prop where
  /-- reset was applied (70_reset_and_hazards.md R234) -/
  resetApplied : s.resetApplied = true
  /-- RK has MAX_ROUNDS entries (10_state.md R25) -/
  rkSize : s.rk.length = Config.maxRounds
  /-- `1 <= ROUNDS <= MAX_ROUNDS` while an instance exists (10_state.md R24) -/
  roundsLegal : s.keyValid = true → 1 ≤ s.rounds.toNat ∧ s.rounds.toNat ≤ Config.maxRounds
  /-- the keys of the instance are a key schedule, but while a new INIT overwrites them
  (10_state.md R26) -/
  keysScheduled : s.keyValid = true → s.fsm ≠ .ks → KeysScheduled s
  /-- a held response has one of the six codes (60_exceptions.md R200) -/
  statusLegal : s.fsm = .resp → s.rspStatus.toNat ≤ 5
  /-- the sequencer's registers while it runs -/
  ks : s.fsm = .ks → KsProgress s
  enc : s.fsm = .enc → CipherProgress 2 encRound (instanceKeys s) s
  dec : s.fsm = .dec → CipherProgress 3 decRound (instanceKeys s).reverse s

/-- A step is safe when it is not refused. -/
def SafeStep (s : State) : Prop := ∃ t, step s = .next t

end Sys2Proof.Machine
end

