-- ==== Sys2Proof/Certificates/Slice0/Obligations.lean ====
section
/-! DEFINITION. The statements for the provers, from the numbered rules of spec/. -/

open Sys2Proof Sys2Proof.Machine

/-! ### Encoding -/

/-- The twelve command words of 30_encoding.md R89 (the spec's own derivation from R74), encoded and
decoded. -/
def Obligations.CommonFormsHaveTheirWords : Prop :=
  (encode (.init 10 32 0) = 0x000200A1 ∧ decodeWord 0x000200A1 = .ok (.init 10 32 0)) ∧
  (encode (.init 16 32 0) = 0x00020101 ∧ decodeWord 0x00020101 = .ok (.init 16 32 0)) ∧
  (encode (.init 10 1 0) = 0x000010A1 ∧ decodeWord 0x000010A1 = .ok (.init 10 1 0)) ∧
  (encode (.init 10 2 0) = 0x000020A1 ∧ decodeWord 0x000020A1 = .ok (.init 10 2 0)) ∧
  (encode (.init 16 31 0) = 0x0001F101 ∧ decodeWord 0x0001F101 = .ok (.init 16 31 0)) ∧
  (encode (.encrypt 8 0 0) = 0x00000082 ∧ decodeWord 0x00000082 = .ok (.encrypt 8 0 0)) ∧
  (encode (.decrypt 8 0 0) = 0x00000083 ∧ decodeWord 0x00000083 = .ok (.decrypt 8 0 0)) ∧
  (encode (.blockSize 0 0 0) = 0x00000004 ∧ decodeWord 0x00000004 = .ok (.blockSize 0 0 0)) ∧
  (encode (.init 9 32 0) = 0x00020091 ∧ decodeWord 0x00020091 = .ok (.init 9 32 0)) ∧
  (encode (.init 10 0 0) = 0x000000A1 ∧ decodeWord 0x000000A1 = .ok (.init 10 0 0)) ∧
  (encode (.encrypt 7 0 0) = 0x00000072 ∧ decodeWord 0x00000072 = .ok (.encrypt 7 0 0)) ∧
  decodeWord 0x00000000 = .error (.illegalOp 0)

/-- 30_encoding.md R74, R75, R87: decoding the word of a command gives it back, whatever its fields. -/
def Obligations.DecodeOfEncodeIsIdentity : Prop := ∀ i : Instr, decodeWord (encode i) = .ok i

/-- 30_encoding.md R74, R75, R87: each word that decodes is the word of what it decodes to, so each word
has one meaning. -/
def Obligations.EncodeOfDecodeIsIdentity : Prop :=
  ∀ (w : CmdWord) (i : Instr), decodeWord w = .ok i → encode i = w

/-- 30_encoding.md R74: the layout of the command word, as the sum of its shifted fields and field by
field. -/
def Obligations.CommandWordLayout : Prop :=
  ∀ (op : BitVec 4) (len rnd : BitVec 8) (rsv : BitVec 12),
    packWord op len rnd rsv = op.setWidth 32 ||| (len.setWidth 32 <<< 4) |||
      (rnd.setWidth 32 <<< 12) ||| (rsv.setWidth 32 <<< 20) ∧
    (packWord op len rnd rsv).extractLsb' 0 4 = op ∧
    (packWord op len rnd rsv).extractLsb' 4 8 = len ∧
    (packWord op len rnd rsv).extractLsb' 12 8 = rnd ∧
    (packWord op len rnd rsv).extractLsb' 20 12 = rsv

/-- 30_encoding.md R75, R86: OP alone selects the command, and every word decodes to exactly one of the
four or is illegal (R87, the spec's own derivation). -/
def Obligations.OpAloneSelectsTheCommand : Prop :=
  ∀ w : CmdWord,
    ((∃ l r v, decodeWord w = .ok (.init l r v)) ↔ w.extractLsb' 0 4 = 1) ∧
    ((∃ l r v, decodeWord w = .ok (.encrypt l r v)) ↔ w.extractLsb' 0 4 = 2) ∧
    ((∃ l r v, decodeWord w = .ok (.decrypt l r v)) ↔ w.extractLsb' 0 4 = 3) ∧
    ((∃ l r v, decodeWord w = .ok (.blockSize l r v)) ↔ w.extractLsb' 0 4 = 4) ∧
    ((∃ e, decodeWord w = .error e) ↔
      (w.extractLsb' 0 4 = 0 ∨ 5 ≤ (w.extractLsb' 0 4).toNat))

/-! ### Tables and round transforms -/

/-- 40_lookup_tables.md R100: the Sbox entries; its inverse table and their properties (R101, R102, which
the spec marks as its own derivations). -/
def Obligations.SboxTablesAreInverse : Prop :=
  [sbox 0, sbox 1, sbox 2, sbox 3, sbox 4, sbox 5, sbox 6, sbox 7, sbox 8, sbox 9, sbox 10, sbox 11,
    sbox 12, sbox 13, sbox 14, sbox 15] = [12, 5, 6, 11, 9, 0, 10, 13, 3, 14, 15, 8, 4, 7, 1, 2] ∧
  [sboxInv 0, sboxInv 1, sboxInv 2, sboxInv 3, sboxInv 4, sboxInv 5, sboxInv 6, sboxInv 7, sboxInv 8,
    sboxInv 9, sboxInv 10, sboxInv 11, sboxInv 12, sboxInv 13, sboxInv 14, sboxInv 15] =
    [5, 14, 15, 8, 12, 1, 2, 13, 11, 4, 6, 3, 0, 7, 9, 10] ∧
  (∀ x : Nibble, sboxInv (sbox x) = x ∧ sbox (sboxInv x) = x ∧ sbox x ≠ x) ∧
  Function.Bijective sbox ∧ sbox (sbox 0) = 4

/-- 40_lookup_tables.md R103 to R106: PBox and its inverse by their formulas, and their properties. The
table beyond entries 0 and 1 is general knowledge of the spec (log 16), and the properties are its own
derivations. -/
def Obligations.PboxTablesAreInverse : Prop :=
  (∀ i : BitIndex, (pbox i).val = 16 * (i.val % 4) + i.val / 4 ∧
    (pbox i).val = (if i.val = 63 then 63 else (16 * i.val) % 63) ∧
    (pboxInv i).val = 4 * (i.val % 16) + i.val / 16 ∧
    (pboxInv i).val = (if i.val = 63 then 63 else (4 * i.val) % 63)) ∧
  (∀ i : BitIndex, pboxInv (pbox i) = i ∧ pbox (pboxInv i) = i) ∧
  Function.Bijective pbox ∧
  (∀ i : BitIndex, pbox i = i ↔ i = 0 ∨ i = 21 ∨ i = 42 ∨ i = 63) ∧
  pbox (pbox 1) = 4

/-- 42_round_transforms.md R150, R151: each substitution layer applies its table to each of the 16
nibbles in place, with the rules' examples. -/
def Obligations.SubstitutionActsOnEachNibble : Prop :=
  (∀ (s : Block) (k : Nat), k < 16 →
    (substitutionLayer s).extractLsb' (4 * k) 4 = sbox (s.extractLsb' (4 * k) 4) ∧
    (substitutionLayerInv s).extractLsb' (4 * k) 4 = sboxInv (s.extractLsb' (4 * k) 4)) ∧
  substitutionLayer 0 = 0xCCCCCCCCCCCCCCCC ∧
  substitutionLayerInv 0xCCCCCCCCCCCCCCCC = 0 ∧
  substitutionLayerInv 0 = 0x5555555555555555

/-- 42_round_transforms.md R152: the two substitution layers undo each other, and the layer is not
linear over XOR (the spec's own derivation from R150, R151). -/
def Obligations.SubstitutionLayersAreInverse : Prop :=
  (∀ s : Block, substitutionLayerInv (substitutionLayer s) = s ∧
    substitutionLayer (substitutionLayerInv s) = s) ∧
  substitutionLayer 0 = 0xCCCCCCCCCCCCCCCC ∧
  ∃ a b : Block, substitutionLayer (a ^^^ b) ≠ substitutionLayer a ^^^ substitutionLayer b

/-- 42_round_transforms.md R153, R154: input bit `i` goes to output bit `PBox[i]`, and back, with the
rules' examples. That bits 0, 21, 42 and 63 stay in place rests on PBox entries the spec marks as general
knowledge (G1, R104; log 16). -/
def Obligations.PermutationMovesEachBit : Prop :=
  (∀ (s : Block) (i : BitIndex),
    (permutationLayer s).getLsbD (pbox i).val = s.getLsbD i.val ∧
    (permutationLayerInv s).getLsbD (pboxInv i).val = s.getLsbD i.val ∧
    (permutationLayerInv s).getLsbD i.val = s.getLsbD (pbox i).val) ∧
  (∀ (s : Block) (i : BitIndex), i = 0 ∨ i = 21 ∨ i = 42 ∨ i = 63 →
    (permutationLayer s).getLsbD i.val = s.getLsbD i.val ∧
    (permutationLayerInv s).getLsbD i.val = s.getLsbD i.val) ∧
  permutationLayer 0x0000000000000002 = 0x0000000000010000 ∧
  permutationLayerInv 0x0000000000010000 = 0x0000000000000002

/-- 42_round_transforms.md R155: the permutation layers undo each other; the layer is linear over XOR and
keeps the number of one bits (the spec's own derivation from R153, R154). -/
def Obligations.PermutationIsLinearAndInvertible : Prop :=
  (∀ s : Block, permutationLayerInv (permutationLayer s) = s ∧
    permutationLayer (permutationLayerInv s) = s) ∧
  (∀ a b : Block, permutationLayer (a ^^^ b) = permutationLayer a ^^^ permutationLayer b) ∧
  (∀ s : Block, (List.finRange 64).countP (fun i => (permutationLayer s).getLsbD i.val) =
    (List.finRange 64).countP (fun i => s.getLsbD i.val)) ∧
  permutationLayer 0 = 0 ∧ permutationLayer 0xFFFFFFFFFFFFFFFF = 0xFFFFFFFFFFFFFFFF

/-- 42_round_transforms.md R156: the round-key adder. -/
def Obligations.AddRoundKeyIsXor : Prop :=
  (∀ s k : Block, addRoundKey s k = s ^^^ k ∧ addRoundKey s 0 = s ∧
    addRoundKey (addRoundKey s k) k = s ∧ addRoundKey s s = 0) ∧
  addRoundKey 0x0123456789ABCDEF 0x0123456789ABCDEF = 0

/-- 42_round_transforms.md R157: the order of the layers in a round, the inverse of a round, and that the
decryption round is not that inverse. -/
def Obligations.RoundsComposeTheLayers : Prop :=
  (∀ s k : Block,
    encRound s k = permutationLayer (substitutionLayer (addRoundKey s k)) ∧
    decRound s k = substitutionLayerInv (permutationLayerInv (addRoundKey s k)) ∧
    addRoundKey (substitutionLayerInv (permutationLayerInv (encRound s k))) k = s ∧
    encRound (addRoundKey (substitutionLayerInv (permutationLayerInv s)) k) k = s) ∧
  ∃ s k : Block, decRound (encRound s k) k ≠ s

/-! ### Key schedule -/

/-- 41_key_schedule.md R122 to R124: the three update steps of the 80-bit register, bit by bit. -/
def Obligations.KeySchedule80UpdateSteps : Prop :=
  ∀ (k : Key80) (i : Nat),
    rotate80 k = k.rotateLeft 61 ∧
    (∀ b, b < 80 → (rotate80 k).getLsbD ((b + 61) % 80) = k.getLsbD b) ∧
    (substitute80 k).extractLsb' 76 4 = sbox (k.extractLsb' 76 4) ∧
    (∀ b, b < 76 → (substitute80 k).getLsbD b = k.getLsbD b) ∧
    (salt80 k i).extractLsb' 15 5 = k.extractLsb' 15 5 ^^^ BitVec.ofNat 5 (i % 32) ∧
    (∀ b, b < 15 ∨ 19 < b → (salt80 k i).getLsbD b = k.getLsbD b) ∧
    update80 k i = salt80 (substitute80 (rotate80 k)) i

/-- 41_key_schedule.md R127 to R129: the three update steps of the 128-bit register, bit by bit. For
counters of 32 and more the salt clause rests on the masked reading (log 17, D33; R129 "is read as the
same masked counter"). -/
def Obligations.KeySchedule128UpdateSteps : Prop :=
  ∀ (k : Key128) (i : Nat),
    rotate128 k = k.rotateLeft 61 ∧
    (∀ b, b < 128 → (rotate128 k).getLsbD ((b + 61) % 128) = k.getLsbD b) ∧
    (substitute128 k).extractLsb' 124 4 = sbox (k.extractLsb' 124 4) ∧
    (substitute128 k).extractLsb' 120 4 = sbox (k.extractLsb' 120 4) ∧
    (∀ b, b < 120 → (substitute128 k).getLsbD b = k.getLsbD b) ∧
    (salt128 k i).extractLsb' 62 5 = k.extractLsb' 62 5 ^^^ BitVec.ofNat 5 (i % 32) ∧
    (∀ b, b < 62 ∨ 66 < b → (salt128 k i).getLsbD b = k.getLsbD b) ∧
    update128 k i = salt128 (substitute128 (rotate128 k)) i

/-- 41_key_schedule.md R120, R121, R125, R126, R130: R keys, the key of iteration `i = j+1` being the top
64 bits of the register after the `j` updates before it; with the worked examples. -/
def Obligations.SchedulesEmitTheRegisterTops : Prop :=
  (∀ (key : Key80) (r : Nat), (ks80 key r).length = r ∧
    ∃ reg : Nat → Key80, reg 0 = key ∧
      (∀ j, reg (j + 1) = salt80 (substitute80 (rotate80 (reg j))) (j + 1)) ∧
      ∀ j, j < r → (ks80 key r)[j]? = some ((reg j).extractLsb' 16 64)) ∧
  (∀ (key : Key128) (r : Nat), (ks128 key r).length = r ∧
    ∃ reg : Nat → Key128, reg 0 = key ∧
      (∀ j, reg (j + 1) = salt128 (substitute128 (rotate128 (reg j))) (j + 1)) ∧
      ∀ j, j < r → (ks128 key r)[j]? = some ((reg j).extractLsb' 64 64)) ∧
  (rotate80 0 = 0 ∧ substitute80 0 = 0xC0000000000000000000 ∧
    salt80 0xC0000000000000000000 1 = 0xC0000000000000008000 ∧
    ks80 0 2 = [0, 0xC000000000000000]) ∧
  (rotate128 0 = 0 ∧ substitute128 0 = 0xCC000000000000000000000000000000 ∧
    salt128 0xCC000000000000000000000000000000 1 = 0xCC000000000000004000000000000000 ∧
    ks128 0 2 = [0, 0xCC00000000000000])

/-- 41_key_schedule.md R132: the salt is `i - 32*floor(i/32)`; a multiple of 32 leaves the register
unchanged; up to 31 the mask has no effect. The update with counter `i` reaches only the keys from index
`i` on: whatever it and the later updates do, the keys below index `i` stay; so with 32 rounds or fewer
what the updates from counter 32 on do shows in no key. More rounds leave the keys of fewer rounds as they
are. The spec derives it from R124 and R129; what it says for 33 rounds and more is the masked reading
(D33, D35, log 17). -/
def Obligations.SaltIsTheCounterModulo32 : Prop :=
  (∀ i : Nat, (salt i).toNat = i - 32 * (i / 32)) ∧
  (∀ i : Nat, i % 32 = 0 → (∀ k, salt80 k i = k) ∧ ∀ k, salt128 k i = k) ∧
  (∀ i : Nat, i ≤ 31 → (salt i).toNat = i) ∧
  (∀ (key : Key80) (i n : Nat) (u : Key80 → Nat → Key80), (∀ k j, j < i → u k j = update80 k j) →
    (scheduleFrom emit80 u key 1 n).take i = (ks80 key n).take i ∧
    (i = 32 → n ≤ 32 → scheduleFrom emit80 u key 1 n = ks80 key n)) ∧
  (∀ (key : Key128) (i n : Nat) (u : Key128 → Nat → Key128),
    (∀ k j, j < i → u k j = update128 k j) →
    (scheduleFrom emit128 u key 1 n).take i = (ks128 key n).take i ∧
    (i = 32 → n ≤ 32 → scheduleFrom emit128 u key 1 n = ks128 key n)) ∧
  (∀ (key : Key80) (m n : Nat), m ≤ n → (ks80 key n).take m = ks80 key m) ∧
  ∀ (key : Key128) (m n : Nat), m ≤ n → (ks128 key n).take m = ks128 key m

/-! ### Operands -/

/-- 00_scope.md R10, 30_encoding.md R80 to R83: lane `j` is `din[127-8j:120-8j]`; the key and block
operands are the big-endian integers of their lanes (R81, R82: the spec's own derivations from R80 and
R10); the result's bytes are its big-endian bytes. -/
def Obligations.OperandsAreBigEndian : Prop :=
  (∀ (d : DataIn) (j b : Nat), j < 16 → b < 8 →
    (lane d j).getLsbD b = d.getLsbD (120 - 8 * j + b)) ∧
  (∀ bs : List Byte, bytesToNat bs =
    ((List.range bs.length).map fun j => (bs.getD j 0).toNat * 2 ^ (8 * (bs.length - 1 - j))).sum) ∧
  (∀ n v j, j < n → (natToBytes n v)[j]? = some (BitVec.ofNat 8 (v >>> (8 * (n - 1 - j))))) ∧
  (∀ d : DataIn,
    (keyOperand80 d = d.extractLsb' 48 80 ∧ (keyOperand80 d).toNat = bytesToNat (lanes d 10)) ∧
    (keyOperand128 d = d ∧ (keyOperand128 d).toNat = bytesToNat (lanes d 16)) ∧
    (blockOperand d = d.extractLsb' 64 64 ∧ (blockOperand d).toNat = bytesToNat (lanes d 8))) ∧
  (∀ r : BitVec 64, (List.range 8).map (resultByte r) = natToBytes 8 r.toNat ∧
    bytesToNat ((List.range 8).map (resultByte r)) = r.toNat)

/-! ### Commands -/

/-- 41_key_schedule.md R136 with R133, R134, R137: INIT checks the key length, then the round
count; an error writes the response alone; else it installs the instance and answers `(OK, 0)`; a
reset meanwhile leaves no instance; with the rule's example. The bits of KREG and RC and the entries of
RK beyond ROUNDS are not said (R27, R32). That a successful INIT keeps STATE is the model's (log 10), and
that RK[0] is the top of the key is R140, the spec's own derivation. -/
def Obligations.InitChecksThenInstalls : Prop :=
  (∀ (len rnd : BitVec 8) (rsv : BitVec 12) (s : State),
    (len ≠ 10 ∧ len ≠ 16 → exec (.init len rnd rsv) s =
      .next { s with rspStatus := 1, rspData := len.setWidth 64, fsm := .resp }) ∧
    ((len = 10 ∨ len = 16) ∧ (rnd = 0 ∨ Config.maxRounds < rnd.toNat) →
      exec (.init len rnd rsv) s =
        .next { s with rspStatus := 3, rspData := rnd.setWidth 64, fsm := .resp }) ∧
    ((len = 10 ∨ len = 16) ∧ 1 ≤ rnd.toNat ∧ rnd.toNat ≤ Config.maxRounds →
      ∃ t, exec (.init len rnd rsv) s = .next t ∧
        t.keyValid = true ∧ t.rounds = rnd ∧ t.ksize = (if len = 10 then 0 else 1) ∧
        t.rk.length = Config.maxRounds ∧
        (∀ j, j < rnd.toNat → t.rk[j]? =
          (if len = 10 then ks80 (s.din.extractLsb' 48 80) rnd.toNat
            else ks128 s.din rnd.toNat)[j]?) ∧
        t.rk[0]? = some (if len = 10 then (s.din.extractLsb' 48 80).extractLsb' 16 64
          else s.din.extractLsb' 64 64) ∧
        t.rspStatus = 0 ∧ t.rspData = 0 ∧ t.fsm = .resp ∧
        t.cmd = s.cmd ∧ t.din = s.din ∧ t.stateReg = s.stateReg ∧
        t.resetApplied = s.resetApplied ∧ t.script = s.script ∧ t.tick = s.tick)) ∧
  (∀ (s : State) (e : Edge), e.rst = true → ∃ t, clockEdge e s = .next t ∧ t.keyValid = false) ∧
  (ks80 0 32)[0]? = some 0 ∧ (ks80 0 32)[1]? = some 0xC000000000000000 ∧
  (ks80 0 32)[31]? = some 0x6DAB31744F41D700

/-- 43_block_cipher.md R171: ENCRYPT checks the key, then the length; else it answers the block
encrypted under `RK[0..ROUNDS-1]` and changes nothing but the response (and the unobservable STATE and
RC); with the rule's corner case and example. That it keeps KREG is the model's (log 10), and the
example's value rests on the PBox table (log 16). -/
def Obligations.EncryptChecksThenAnswers : Prop :=
  (∀ (len rnd : BitVec 8) (rsv : BitVec 12) (s : State),
    (s.keyValid = false → exec (.encrypt len rnd rsv) s =
      .next { s with rspStatus := 4, rspData := 0, fsm := .resp }) ∧
    (s.keyValid = true ∧ len ≠ 8 → exec (.encrypt len rnd rsv) s =
      .next { s with rspStatus := 2, rspData := len.setWidth 64, fsm := .resp }) ∧
    (s.keyValid = true ∧ len = 8 → ∃ t, exec (.encrypt len rnd rsv) s = .next t ∧
      t.rspStatus = 0 ∧
      t.rspData = encryptBlock (s.din.extractLsb' 64 64)
        ((List.range s.rounds.toNat).map (rkRead s)) ∧
      (s.rounds = 1 → t.rspData = s.din.extractLsb' 64 64 ^^^ rkRead s 0) ∧
      t.fsm = .resp ∧ t.keyValid = s.keyValid ∧ t.ksize = s.ksize ∧ t.rounds = s.rounds ∧
      t.rk = s.rk ∧ t.cmd = s.cmd ∧ t.din = s.din ∧ t.kreg = s.kreg ∧
      t.resetApplied = s.resetApplied ∧ t.script = s.script ∧ t.tick = s.tick)) ∧
  encryptBlock 0 (ks80 0 32) = 0x5579C1387B228445

/-- 43_block_cipher.md R174: DECRYPT, in the same form as ENCRYPT; its answer is the one block that
Encrypt maps to the operand. That it keeps KREG is the model's (log 10), and the example's value rests
on the PBox table (log 16). -/
def Obligations.DecryptChecksThenAnswers : Prop :=
  (∀ (len rnd : BitVec 8) (rsv : BitVec 12) (s : State),
    (s.keyValid = false → exec (.decrypt len rnd rsv) s =
      .next { s with rspStatus := 4, rspData := 0, fsm := .resp }) ∧
    (s.keyValid = true ∧ len ≠ 8 → exec (.decrypt len rnd rsv) s =
      .next { s with rspStatus := 2, rspData := len.setWidth 64, fsm := .resp }) ∧
    (s.keyValid = true ∧ len = 8 → ∃ t, exec (.decrypt len rnd rsv) s = .next t ∧
      t.rspStatus = 0 ∧
      t.rspData = decryptBlock (s.din.extractLsb' 64 64)
        ((List.range s.rounds.toNat).map (rkRead s)) ∧
      (s.rounds = 1 → t.rspData = s.din.extractLsb' 64 64 ^^^ rkRead s 0) ∧
      (1 ≤ s.rounds.toNat → ∀ p : Block,
        encryptBlock p ((List.range s.rounds.toNat).map (rkRead s)) = s.din.extractLsb' 64 64 ↔
          p = t.rspData) ∧
      t.fsm = .resp ∧ t.keyValid = s.keyValid ∧ t.ksize = s.ksize ∧ t.rounds = s.rounds ∧
      t.rk = s.rk ∧ t.cmd = s.cmd ∧ t.din = s.din ∧ t.kreg = s.kreg ∧
      t.resetApplied = s.resetApplied ∧ t.script = s.script ∧ t.tick = s.tick)) ∧
  decryptBlock 0x5579C1387B228445 (ks80 0 32) = 0

/-- 43_block_cipher.md R177: BLOCK_SIZE answers `(OK, 8)` in every state and writes the response
alone. -/
def Obligations.BlockSizeAnswersEight : Prop :=
  (∀ (len rnd : BitVec 8) (rsv : BitVec 12) (s : State),
    exec (.blockSize len rnd rsv) s =
      .next { s with rspStatus := 0, rspData := 8, fsm := .resp }) ∧
  decodeWord 0x00000004 = .ok (.blockSize 0 0 0)

/-- 60_exceptions.md R202 to R208, 30_encoding.md R84: the first failing check, in the order of R208,
decides the status and the payload of the latched command, and nothing but the response is written. -/
def Obligations.ChecksRunInOrder : Prop :=
  ∀ s : State,
    (cmdOp s.cmd ∉ [1, 2, 3, 4] → runLatched s =
      .next { s with rspStatus := 5, rspData := s.cmd.setWidth 64, fsm := .resp }) ∧
    (cmdOp s.cmd = 1 ∧ cmdLen s.cmd ∉ [10, 16] → runLatched s =
      .next { s with rspStatus := 1, rspData := (cmdLen s.cmd).setWidth 64, fsm := .resp }) ∧
    (cmdOp s.cmd = 1 ∧ cmdLen s.cmd ∈ [10, 16] ∧
        ¬ (1 ≤ (cmdRnd s.cmd).toNat ∧ (cmdRnd s.cmd).toNat ≤ Config.maxRounds) → runLatched s =
      .next { s with rspStatus := 3, rspData := (cmdRnd s.cmd).setWidth 64, fsm := .resp }) ∧
    (cmdOp s.cmd ∈ [2, 3] ∧ s.keyValid = false → runLatched s =
      .next { s with rspStatus := 4, rspData := 0, fsm := .resp }) ∧
    (cmdOp s.cmd ∈ [2, 3] ∧ s.keyValid = true ∧ cmdLen s.cmd ≠ 8 → runLatched s =
      .next { s with rspStatus := 2, rspData := (cmdLen s.cmd).setWidth 64, fsm := .resp })

/-- 30_encoding.md R78, R79, R81, R82: RSV, unused fields and lanes beyond the operand have no effect:
the command ends in the same state but for the bits of DIN themselves. The lanes are those of R80 with
R81 and R82, which the spec marks as its own derivations. -/
def Obligations.UnusedFieldsAndLanesAreIgnored : Prop :=
  ∀ (len rnd rnd' len' : BitVec 8) (rsv rsv' : BitVec 12) (s : State) (d : DataIn),
    exec (.init len rnd rsv) s = exec (.init len rnd rsv') s ∧
    exec (.encrypt len rnd rsv) s = exec (.encrypt len rnd' rsv') s ∧
    exec (.decrypt len rnd rsv) s = exec (.decrypt len rnd' rsv') s ∧
    exec (.blockSize len rnd rsv) s = exec (.blockSize len' rnd' rsv') s ∧
    (∀ t, exec (.blockSize len rnd rsv) s = .next t →
      exec (.blockSize len rnd rsv) { s with din := d } = .next { t with din := d }) ∧
    (∀ t, d.extractLsb' 48 80 = s.din.extractLsb' 48 80 → exec (.init 10 rnd rsv) s = .next t →
      exec (.init 10 rnd rsv) { s with din := d } = .next { t with din := d }) ∧
    (∀ t, d.extractLsb' 64 64 = s.din.extractLsb' 64 64 → exec (.encrypt len rnd rsv) s = .next t →
      exec (.encrypt len rnd rsv) { s with din := d } = .next { t with din := d }) ∧
    (∀ t, d.extractLsb' 64 64 = s.din.extractLsb' 64 64 → exec (.decrypt len rnd rsv) s = .next t →
      exec (.decrypt len rnd rsv) { s with din := d } = .next { t with din := d })

/-! ### The cipher -/

/-- 43_block_cipher.md R172, and R175, which the spec derives: with one round key both directions are a
single XOR; Scenario C. -/
def Obligations.OneRoundIsOneXor : Prop :=
  (∀ (b : Block) (k : RoundKey), encryptBlock b [k] = b ^^^ k ∧ decryptBlock b [k] = b ^^^ k) ∧
  encryptBlock 0 (ks80 0 1) = 0

/-- 43_block_cipher.md R170, R173: the loops of Encrypt and Decrypt, round by round, with the key
each reads. -/
def Obligations.CipherLoopsReadKeysInOrder : Prop :=
  ∀ (b : Block) (rk : Nat → RoundKey) (r : Nat), 1 ≤ r →
    (∃ st : Nat → Block, st 0 = b ∧
      (∀ i, i + 1 < r → st (i + 1) = permutationLayer (substitutionLayer (st i ^^^ rk i))) ∧
      encryptBlock b ((List.range r).map rk) = st (r - 1) ^^^ rk (r - 1)) ∧
    (∃ st : Nat → Block, st 0 = b ∧
      (∀ i, i + 1 < r →
        st (i + 1) = substitutionLayerInv (permutationLayerInv (st i ^^^ rk (r - 1 - i)))) ∧
      decryptBlock b ((List.range r).map rk) = st (r - 1) ^^^ rk 0)

/-- 43_block_cipher.md R183: Decrypt's state after `i` rounds is Encrypt's after `r-1-i` rounds, XOR the
key of that index (the spec's own derivation from R176). -/
def Obligations.DecryptRetracesEncrypt : Prop :=
  ∀ (b : Block) (rk : Nat → RoundKey) (r : Nat) (st dt : Nat → Block), 1 ≤ r →
    st 0 = b → (∀ i, i + 1 < r → st (i + 1) = encRound (st i) (rk i)) →
    dt 0 = encryptBlock b ((List.range r).map rk) →
    (∀ i, i + 1 < r → dt (i + 1) = decRound (dt i) (rk (r - 1 - i))) →
    ∀ i, i < r → dt i = st (r - 1 - i) ^^^ rk (r - 1 - i)

/-- 43_block_cipher.md R176: decryption undoes encryption under any list of at least one key, and
encryption under fixed keys is a bijection on blocks (the source's central invariant, which the spec
derives from R170 and R173). -/
def Obligations.DecryptUndoesEncrypt : Prop :=
  ∀ rk : List RoundKey, rk ≠ [] →
    (∀ b : Block, decryptBlock (encryptBlock b rk) rk = b ∧
      encryptBlock (decryptBlock b rk) rk = b) ∧
    Function.Bijective (fun b => encryptBlock b rk) ∧
    ∀ s : State, instanceKeys s = rk →
      ∀ b, decryptBlock (encryptBlock b (instanceKeys s)) (instanceKeys s) = b

/-- 43_block_cipher.md R176 on the machine: with an instance, a DECRYPT of the answer of an ENCRYPT
answers the block, however many edges lie between the two. -/
def Obligations.DecryptCommandUndoesEncryptCommand : Prop :=
  ∀ (s : State) (rnd rnd' : BitVec 8) (rsv rsv' : BitVec 12) (w : CmdWord) (d : DataIn) (n : Nat),
    CoreInv s → s.keyValid = true →
    ∃ t, exec (.encrypt 8 rnd rsv) s = .next t ∧ t.rspStatus = 0 ∧
      (d.extractLsb' 64 64 = t.rspData →
        ∃ u, exec (.decrypt 8 rnd' rsv') { accept w d (consume t) with tick := n } = .next u ∧
          u.rspStatus = 0 ∧ u.rspData = s.din.extractLsb' 64 64)

/-- 41_key_schedule.md R138, 20_memory.md R58, 70_reset_and_hazards.md R245 (the last two the spec's own
derivations): whatever happens between, as long as the instance stays, the ENCRYPTs and DECRYPTs after a
successful INIT work under the keys of that INIT's schedule. -/
def Obligations.LaterCommandsUseTheNewInstance : Prop :=
  ∀ (s t u : State) (len rnd rnd' : BitVec 8) (rsv rsv' : BitVec 12),
    len = 10 ∨ len = 16 → 1 ≤ rnd.toNat → rnd.toNat ≤ Config.maxRounds →
    exec (.init len rnd rsv) s = .next t →
    u.keyValid = t.keyValid → u.rounds = t.rounds → u.rk = t.rk →
    ∃ v w, exec (.encrypt 8 rnd' rsv') u = .next v ∧ exec (.decrypt 8 rnd' rsv') u = .next w ∧
      v.rspStatus = 0 ∧ w.rspStatus = 0 ∧
      v.rspData = encryptBlock (u.din.extractLsb' 64 64)
        (if len = 10 then ks80 (s.din.extractLsb' 48 80) rnd.toNat else ks128 s.din rnd.toNat) ∧
      w.rspData = decryptBlock (u.din.extractLsb' 64 64)
        (if len = 10 then ks80 (s.din.extractLsb' 48 80) rnd.toNat else ks128 s.din rnd.toNat)

/-- Short vectors of 95_test_vectors.md section 3.3: T-2R-2, T-2R-3 and T-3R-4, both directions. The
values rest on the PBox table (log 16). -/
def Obligations.ShortVectorsAgree : Prop :=
  encryptBlock 0x0123456789ABCDEF (ks80 0x0123456789ABCDEF0123 2) = 0xEFDB9FDB68ACF135 ∧
  decryptBlock 0xEFDB9FDB68ACF135 (ks80 0x0123456789ABCDEF0123 2) = 0x0123456789ABCDEF ∧
  encryptBlock 0x0123456789ABCDEF (ks128 0x0123456789ABCDEF0123456789ABCDEF 2) =
    0xE3DB9753F13579BD ∧
  decryptBlock 0xE3DB9753F13579BD (ks128 0x0123456789ABCDEF0123456789ABCDEF 2) =
    0x0123456789ABCDEF ∧
  encryptBlock 0 (ks80 0xFFFFFFFFFFFFFFFFFFFF 3) = 0x1F0F650F00F0FFFE ∧
  decryptBlock 0x1F0F650F00F0FFFE (ks80 0xFFFFFFFFFFFFFFFFFFFF 3) = 0

/-! ### The interface -/

/-- A step of a busy core that finishes at its next edge is exec of the decoded command, on the state
with that edge taken off the script; and the step of a placed word is exec of what the decoder reads
from it. The model's own form of 30_encoding.md R72 and 43_block_cipher.md R184 (log 5, log 7). -/
def Obligations.StepRunsTheDecodedCommand : Prop :=
  (∀ (s : State) (i : Instr), s.resetApplied = true → phase s = .busy → (nextEdge s).rst = false →
    (nextEdge s).pace = .finish → decodeWord s.cmd = .ok i → step s = exec i (advance s)) ∧
  (∀ (s : State) (nbits w : Nat) (i : Instr), decodeTableWord nbits w = some i →
    step (s.withFetchWord nbits w) =
      exec i { s with cmd := BitVec.ofNat 32 (w % 2 ^ nbits), fsm := .decode, resetApplied := true,
                      tick := s.tick + 1 })

/-- 30_encoding.md R72: a command is accepted in IDLE with `cmd_valid = 1` and latched; while
`cmd_ready = 0` the command inputs have no effect at all. -/
def Obligations.CommandsAreAcceptedOnlyWhenReady : Prop :=
  (∀ (s : State) (e : Edge), s.resetApplied = true → e.rst = false → e.cmdValid = true →
    cmdReady s = true →
    ∃ t, clockEdge e s = .next t ∧ t.cmd = e.cmdWord ∧ t.din = e.din ∧ phase t = .busy ∧
      t = { s with cmd := e.cmdWord, din := e.din, fsm := t.fsm }) ∧
  (∀ (s : State) (e : Edge) (v : Bool) (w : CmdWord) (d : DataIn), cmdReady s = false →
    clockEdge e s = clockEdge { e with cmdValid := v, cmdWord := w, din := d } s) ∧
  (∀ (s : State) (e : Edge), s.resetApplied = true → e.rst = false → e.cmdValid = false →
    cmdReady s = true → clockEdge e s = .next s)

/-- 30_encoding.md R73, 10_state.md R29: a held response and its outputs stay as they are, and no
command is accepted, until an edge with `rsp_ready = 1`, after which the core is IDLE. -/
def Obligations.ResponsesAreHeldUntilTaken : Prop :=
  ∀ (s : State) (e : Edge), s.resetApplied = true → e.rst = false → rspValid s = true →
    rspStatusPort s = s.rspStatus ∧ rspDataPort s = s.rspData ∧ cmdReady s = false ∧
    (e.rspReady = false → clockEdge e s = .next s) ∧
    (e.rspReady = true → ∃ t, clockEdge e s = .next t ∧ phase t = .idle ∧ cmdReady t = true ∧
      t = { s with fsm := .idle })

/-- 10_state.md R28, R34, 30_encoding.md R71: PHASE as FSM gives it, and the handshake outputs as
functions of PHASE alone. -/
def Obligations.PortsFollowThePhase : Prop :=
  (∀ s : State, (phase s = .idle ↔ s.fsm = .idle) ∧ (phase s = .resp ↔ s.fsm = .resp) ∧
    (phase s = .busy ↔ s.fsm = .decode ∨ s.fsm = .ks ∨ s.fsm = .enc ∨ s.fsm = .dec) ∧
    (cmdReady s = true ↔ phase s = .idle) ∧ (rspValid s = true ↔ phase s = .resp)) ∧
  ∀ s t : State, phase s = phase t → cmdReady s = cmdReady t ∧ rspValid s = rspValid t

/-- 70_reset_and_hazards.md R230 to R232: an edge with `rst = 1` gives IDLE with no instance, whatever
the core was doing and whatever else the host drives; no response is produced, held or consumed. -/
def Obligations.ResetWinsOverEverything : Prop :=
  (∀ (s : State) (e : Edge), e.rst = true →
    ∃ t, clockEdge e s = .next t ∧ phase t = .idle ∧ t.fsm = .idle ∧ t.keyValid = false ∧
      cmdReady t = true ∧ rspValid t = false ∧ t.resetApplied = true ∧ t.script = s.script ∧
      clockEdge { rst := true } s = .next t) ∧
  ∀ s : State, (nextEdge s).rst = true → responseTaken s = none

/-- 70_reset_and_hazards.md R233, which the spec derives from R230: at the first edge with `rst = 0` after
a reset the core is ready, and a command presented there is accepted. -/
def Obligations.CoreIsReadyAfterReset : Prop :=
  ∀ (s : State) (e f : Edge), e.rst = true → f.rst = false →
    ∃ t, clockEdge e s = .next t ∧ cmdReady t = true ∧
      (f.cmdValid = true → ∃ u, clockEdge f t = .next u ∧ u.cmd = f.cmdWord ∧ u.din = f.din ∧
        phase u = .busy) ∧
      (f.cmdValid = false → clockEdge f t = .next t)

/-- 70_reset_and_hazards.md R234: before the first reset the model gives no behaviour; one reset edge
gives it. The refusal is the treatment 93_implementation_defined.md U4 asks for (log 13). -/
def Obligations.NothingRunsBeforeTheFirstReset : Prop :=
  ∀ (s : State) (e : Edge),
    (e.rst = false → clockEdge e (powerUp s) = .refused .beforeFirstReset) ∧
    (e.rst = true → ∃ t, clockEdge e (powerUp s) = .next t ∧ t.resetApplied = true)

/-- 10_state.md R38: what the spec gives a reset core. The other registers' values in State.reset are
the model's (log 3) and not stated here. -/
def Obligations.ResetStateIsIdleWithoutKey : Prop :=
  State.reset.keyValid = false ∧ phase State.reset = .idle ∧ State.reset.fsm = .idle ∧
  cmdReady State.reset = true ∧ rspValid State.reset = false ∧
  State.reset.rk.length = Config.maxRounds

/-- 70_reset_and_hazards.md R250: whatever the latency, after any number of edges at which a busy core
holds, the command completes with the effect of its meaning. The edges are the model's own form of
time (log 6). -/
def Obligations.EveryLatencyCompletesTheCommand : Prop :=
  ∀ (s : State) (holds : List Edge) (last : Edge) (rest : List Edge),
    s.resetApplied = true → phase s = .busy → s.script = holds ++ last :: rest →
    (∀ e ∈ holds, e.rst = false ∧ e.pace = .hold) → last.rst = false → last.pace = .finish →
    ∃ t, runSteps (holds.length + 1) s = .next t ∧ phase t = .resp ∧
      runLatched { s with script := rest, tick := s.tick + holds.length + 1 } = .next t

/-- 30_encoding.md R73, 70_reset_and_hazards.md R242, R245: a command presented to an idle core, held
busy for any number of edges, and its response left waiting for any number of edges, gives exactly one
response in the observation, that of its meaning, and leaves the core idle with the instance of its
meaning (KEY_VALID, KSIZE, ROUNDS and RK). The edges are the model's own form of time (log 5, log 6). -/
def Obligations.EachCommandGivesExactlyOneResponse : Prop :=
  ∀ (s : State) (holds waits rest : List Edge) (first last taken : Edge),
    s.resetApplied = true → phase s = .idle →
    s.script = first :: holds ++ last :: waits ++ taken :: rest →
    first.rst = false → first.cmdValid = true →
    (∀ e ∈ holds, e.rst = false ∧ e.pace = .hold) → last.rst = false → last.pace = .finish →
    (∀ e ∈ waits, e.rst = false ∧ e.rspReady = false) → taken.rst = false → taken.rspReady = true →
    ∃ t u, runLatched (accept first.cmdWord first.din
        { s with script := waits ++ taken :: rest, tick := s.tick + holds.length + 2 }) = .next t ∧
      observe (holds.length + waits.length + 3) s = [(t.rspStatus, t.rspData)] ∧
      runSteps (holds.length + waits.length + 3) s = .next u ∧
      phase u = .idle ∧ u.script = rest ∧ u.keyValid = t.keyValid ∧ u.ksize = t.ksize ∧
      u.rounds = t.rounds ∧ u.rk = t.rk

/-! ### Whole-machine rules -/

/-- The invariant of Safety.lean holds right after reset (10_state.md R24, R25, R38). -/
def Obligations.InvariantHoldsAtReset : Prop := CoreInv State.reset

/-- Every step keeps the invariant: the store's size (10_state.md R25), the legal round count (R24), the
instance's keys being a key schedule of a key of KSIZE's size (R26), the status range
(60_exceptions.md R200), and the sequencer's registers (41 R139, 43 R185). -/
def Obligations.EveryStepKeepsTheInvariant : Prop :=
  ∀ s t : State, CoreInv s → step s = .next t → CoreInv t

/-- No step of a core that was reset stops (60_exceptions.md R209, 43_block_cipher.md R181: apart from
the errors, no command can fail). -/
def Obligations.NoStepStopsAfterReset : Prop :=
  ∀ s : State, CoreInv s → SafeStep s ∧ ∀ t, step s = .next t → t.resetApplied = true

/-- 10_state.md R22 to R24, R26, 43_block_cipher.md R179: the instance changes only at a reset or by a
valid INIT: every other step leaves KEY_VALID, KSIZE, ROUNDS and every RK entry. -/
def Obligations.OnlyInitAndResetChangeTheInstance : Prop :=
  ∀ s t : State, CoreInv s → step s = .next t → (nextEdge s).rst = false →
    ¬ (phase s = .busy ∧ cmdOp s.cmd = 1 ∧ (cmdLen s.cmd = 10 ∨ cmdLen s.cmd = 16) ∧
      1 ≤ (cmdRnd s.cmd).toNat ∧ (cmdRnd s.cmd).toNat ≤ Config.maxRounds) →
    t.keyValid = s.keyValid ∧ t.ksize = s.ksize ∧ t.rounds = s.rounds ∧ t.rk = s.rk

/-- 10_state.md R29, 60_exceptions.md R209: the response register changes only at the edge at which a
command completes (BUSY to RESP), or at a reset. -/
def Obligations.ResponseIsWrittenOnceByCompletion : Prop :=
  ∀ s t : State, CoreInv s → step s = .next t → (nextEdge s).rst = false →
    (t.rspStatus = s.rspStatus ∧ t.rspData = s.rspData) ∨ (phase s = .busy ∧ phase t = .resp)

/-- 10_state.md R35: STATE, KREG, RC and FSM have no influence on what a command answers or does to the
instance. -/
def Obligations.InternalRegistersAreUnobservable : Prop :=
  ∀ (s : State) (st : Block) (kr : BitVec 128) (c : BitVec 8) (f : Fsm) (t u : State),
    runLatched s = .next t →
    runLatched { s with stateReg := st, kreg := kr, rc := c, fsm := f } = .next u →
    u.rspStatus = t.rspStatus ∧ u.rspData = t.rspData ∧ u.keyValid = t.keyValid ∧
    u.ksize = t.ksize ∧ u.rounds = t.rounds ∧ u.rk = t.rk ∧ phase u = phase t

/-- 20_memory.md R63: the answer of an ENCRYPT or DECRYPT depends only on its length field, its block
and the instance. -/
def Obligations.CipherAnswersDependOnBlockAndInstance : Prop :=
  ∀ (s s' : State) (len rnd : BitVec 8) (rsv : BitVec 12) (t t' u u' : State),
    s.keyValid = s'.keyValid → instanceKeys s = instanceKeys s' →
    s.din.extractLsb' 64 64 = s'.din.extractLsb' 64 64 →
    exec (.encrypt len rnd rsv) s = .next t → exec (.encrypt len rnd rsv) s' = .next t' →
    exec (.decrypt len rnd rsv) s = .next u → exec (.decrypt len rnd rsv) s' = .next u' →
    t.rspStatus = t'.rspStatus ∧ t.rspData = t'.rspData ∧
    u.rspStatus = u'.rspStatus ∧ u.rspData = u'.rspData

/-- 20_memory.md R56: a command repeated with the same inputs, at any later edge, gives the same
response and leaves the same instance. -/
def Obligations.RepeatedCommandsAnswerTheSame : Prop :=
  ∀ (s t u : State) (n : Nat), CoreInv s → phase s = .busy →
    runLatched s = .next t → runLatched { t with tick := n } = .next u →
    u.rspStatus = t.rspStatus ∧ u.rspData = t.rspData ∧ u.keyValid = t.keyValid ∧
    u.ksize = t.ksize ∧ u.rounds = t.rounds ∧
    u.rk.take u.rounds.toNat = t.rk.take t.rounds.toNat

/-- 60_exceptions.md R200: whatever command is latched, it completes with a response of one of the codes
0 to 5. -/
def Obligations.EveryCommandAnswersWithALegalStatus : Prop :=
  ∀ s : State, ∃ t, runLatched s = .next t ∧ phase t = .resp ∧ t.rspStatus.toNat ≤ 5

/-! ### The reference sequencer -/

/-- 41_key_schedule.md R139, 43_block_cipher.md R184, R185: one step of the reference sequencer either
leaves what the command will do unchanged, or ends the command in exactly the state of its meaning. -/
def Obligations.SequencerStepRefinesTheCommand : Prop :=
  ∀ s : State, CoreInv s → phase s = .busy →
    (phase (sequencerStep s) = .busy ∧ runLatched (sequencerStep s) = runLatched s) ∨
    (phase (sequencerStep s) = .resp ∧ runLatched s = .next (sequencerStep s))

/-- 70_reset_and_hazards.md R251 (reference figures, non-normative): at one sequencer step an edge a valid
INIT takes R+1 edges, a valid ENCRYPT or DECRYPT ROUNDS+1, everything else 1. -/
def Obligations.SequencerTakesTheReferenceLatency : Prop :=
  ∀ s : State, CoreInv s → s.fsm = .decode →
    ∃ n, n = (if cmdOp s.cmd = 1 ∧ initCheck (cmdLen s.cmd) (cmdRnd s.cmd) = none
          then (cmdRnd s.cmd).toNat + 1
        else if (cmdOp s.cmd = 2 ∨ cmdOp s.cmd = 3) ∧ cipherCheck s.keyValid (cmdLen s.cmd) = none
          then s.rounds.toNat + 1
        else 1) ∧
      phase (sequencerStep^[n] s) = .resp ∧ ∀ k, k < n → phase (sequencerStep^[k] s) = .busy

/-- 43_block_cipher.md R185, 10_state.md R35: at whatever mix of paces (log 6) a busy core goes, the response and
the instance it ends with are those of the command's meaning. -/
def Obligations.PaceDoesNotChangeTheAnswer : Prop :=
  ∀ (s t : State) (es rest : List Edge), CoreInv s → phase s = .busy → s.script = es ++ rest →
    (∀ e ∈ es, e.rst = false ∧ e.rspReady = false) →
    runSteps es.length s = .next t → phase t = .resp →
    ∃ u, runLatched s = .next u ∧ t.rspStatus = u.rspStatus ∧ t.rspData = u.rspData ∧
      t.keyValid = u.keyValid ∧ t.ksize = u.ksize ∧ t.rounds = u.rounds ∧
      t.rk.take t.rounds.toNat = u.rk.take u.rounds.toNat

/-! ### The host's side -/

/-- 30_encoding.md R88: what the assembler makes of each line. INIT, ENCRYPT and DECRYPT: OP, LEN, RND
and RSV, the operand big-endian in lanes 0 to `len-1` and zero in the others (a block of a length other
than 8 is the model's choice, log 22); the defaults of 32 rounds and 8 bytes; INIT80 and INIT128 with and
without a round count; BLOCK_SIZE; RAW; and RESET, which is no command but one edge with `rst = 1`. The
operand's and the round count's limits are the model's choice (log 19). -/
def Obligations.AssemblerPlacesTheOperands : Prop :=
  (∀ len v r, len ≤ 16 → v < 2 ^ (8 * len) → r < 256 →
    ∃ d, assemble (.init v len (some r)) =
        some (encode (.init (BitVec.ofNat 8 len) (BitVec.ofNat 8 r) 0), d) ∧
      assemble (.encrypt v (some len)) = some (encode (.encrypt (BitVec.ofNat 8 len) 0 0), d) ∧
      assemble (.decrypt v (some len)) = some (encode (.decrypt (BitVec.ofNat 8 len) 0 0), d) ∧
      lanes d len = natToBytes len v ∧ ∀ j, len ≤ j → j < 16 → lane d j = 0) ∧
  (∀ key len, assemble (.init key len none) = assemble (.init key len (some 32))) ∧
  (∀ blk, assemble (.encrypt blk none) = assemble (.encrypt blk (some 8)) ∧
    assemble (.decrypt blk none) = assemble (.decrypt blk (some 8))) ∧
  (∀ key (rounds : Option Nat), key < 2 ^ 80 → rounds.getD 32 < 256 →
    ∃ d, assemble (.init80 key rounds) =
        some (encode (.init 10 (BitVec.ofNat 8 (rounds.getD 32)) 0), d) ∧
      assemble (.init80 key rounds) = assemble (.init key 10 rounds) ∧
      (d.extractLsb' 48 80).toNat = key ∧ d.extractLsb' 0 48 = 0) ∧
  (∀ key (rounds : Option Nat), key < 2 ^ 128 → rounds.getD 32 < 256 →
    ∃ d, assemble (.init128 key rounds) =
        some (encode (.init 16 (BitVec.ofNat 8 (rounds.getD 32)) 0), d) ∧
      assemble (.init128 key rounds) = assemble (.init key 16 rounds) ∧ d.toNat = key) ∧
  (∀ blk, blk < 2 ^ 64 →
    ∃ d, assemble (.encrypt blk none) = some (encode (.encrypt 8 0 0), d) ∧
      assemble (.decrypt blk none) = some (encode (.decrypt 8 0 0), d) ∧
      (d.extractLsb' 64 64).toNat = blk ∧ d.extractLsb' 0 64 = 0) ∧
  assemble .blockSize = some (encode (.blockSize 0 0 0), 0) ∧
  (∀ w d, assemble (.raw w d) = some (w, d)) ∧
  assemble .reset = none ∧ driveLine .reset = some [{ rst := true }]

/-- 30_encoding.md R76 with R202, R203: host and core together reject every key that is not 10 or 16
bytes long and every block that is not 8 bytes long, also above 255. -/
def Obligations.HostAndCoreRejectWrongLengths : Prop :=
  (∀ (key : List Byte) (rounds : BitVec 8) (s : State), key.length ≠ 10 → key.length ≠ 16 →
    (255 < key.length ∧ hostNew key rounds = .error .invalidKeyLength) ∨
    ∃ w d t, hostNew key rounds = .ok (w, d) ∧ runLatched (accept w d s) = .next t ∧
      t.rspStatus = 1 ∧ t.rspData.toNat = key.length ∧ t.keyValid = s.keyValid ∧ t.rk = s.rk) ∧
  (∀ (blk : List Byte) (s : State), blk.length ≠ 8 → s.keyValid = true →
    (255 < blk.length ∧ hostEncrypt blk = .error .invalidBlockLength ∧
      hostDecrypt blk = .error .invalidBlockLength) ∨
    ∃ w w' d t t', hostEncrypt blk = .ok (w, d) ∧ hostDecrypt blk = .ok (w', d) ∧
      runLatched (accept w d s) = .next t ∧ runLatched (accept w' d s) = .next t' ∧
      t.rspStatus = 2 ∧ t.rspData.toNat = blk.length ∧
      t'.rspStatus = 2 ∧ t'.rspData.toNat = blk.length)
end

