-- ==== Sys2Proof/Laws/Cipher.lean ====
section
/-! SUPPORT. The loop of the cipher from its last key. -/

namespace Sys2Proof.Laws

open Sys2Proof Sys2Proof.Machine

/-- A round under each key but the last, then the last key added (43_block_cipher.md R170, R173). -/
theorem keyedLoop_concat (round : Block → RoundKey → Block) (s : Block) (ks : List RoundKey)
    (k : RoundKey) : keyedLoop round s (ks ++ [k]) = addRoundKey (ks.foldl round s) k := by
  induction ks generalizing s with
  | nil => rfl
  | cons a ks ih =>
    cases ks with
    | nil => rfl
    | cons b ks => simpa [keyedLoop] using ih (round s a)

end Sys2Proof.Laws
end

