-- ==== Sys2Proof/Laws/Encoding.lean ====
section
/-! SUPPORT. The fields of a packed command word, and what the decoder answers. -/

namespace Sys2Proof.Laws

open Sys2Proof

theorem packWord_getLsbD (op : BitVec 4) (len rnd : BitVec 8) (rsv : BitVec 12) (b : Nat) (hb : b < 32) :
    (packWord op len rnd rsv).getLsbD b =
      if b < 4 then op.getLsbD b
      else if b < 12 then len.getLsbD (b - 4)
      else if b < 20 then rnd.getLsbD (b - 12)
      else rsv.getLsbD (b - 20) := by
  simp only [packWord, BitVec.getLsbD_or, BitVec.getLsbD_setWidth, BitVec.getLsbD_shiftLeft, hb,
    decide_true, Bool.true_and]
  have key : ∀ (w k : Nat) (v : BitVec w), w ≤ k → v.getLsbD k = false :=
    fun w k v h => BitVec.getLsbD_of_ge v k h
  by_cases h1 : b < 4
  · simp [h1, show b < 12 by omega, show b < 20 by omega]
  by_cases h2 : b < 12
  · simp [h1, h2, show b < 20 by omega, key 4 b op (by omega), show b - 4 < 32 by omega]
  by_cases h3 : b < 20
  · simp [h1, h2, h3, key 4 b op (by omega), key 8 (b - 4) len (by omega),
      show b - 12 < 32 by omega]
  · simp [h1, h2, h3, key 4 b op (by omega), key 8 (b - 4) len (by omega),
      key 8 (b - 12) rnd (by omega), show b - 20 < 32 by omega]

/-- Exactly one of the four commands, or an illegal OP. -/
theorem decodeWord_cases (w : CmdWord) :
    (cmdOp w = 1 ∧ decodeWord w = .ok (.init (cmdLen w) (cmdRnd w) (cmdRsv w))) ∨
    (cmdOp w = 2 ∧ decodeWord w = .ok (.encrypt (cmdLen w) (cmdRnd w) (cmdRsv w))) ∨
    (cmdOp w = 3 ∧ decodeWord w = .ok (.decrypt (cmdLen w) (cmdRnd w) (cmdRsv w))) ∨
    (cmdOp w = 4 ∧ decodeWord w = .ok (.blockSize (cmdLen w) (cmdRnd w) (cmdRsv w))) ∨
    ((cmdOp w ≠ 1 ∧ cmdOp w ≠ 2 ∧ cmdOp w ≠ 3 ∧ cmdOp w ≠ 4) ∧
      decodeWord w = .error (.illegalOp (cmdOp w))) := by
  by_cases h1 : cmdOp w = 1
  · exact .inl ⟨h1, if_pos h1⟩
  by_cases h2 : cmdOp w = 2
  · exact .inr (.inl ⟨h2, by rw [decodeWord, if_neg h1, if_pos h2]⟩)
  by_cases h3 : cmdOp w = 3
  · exact .inr (.inr (.inl ⟨h3, by rw [decodeWord, if_neg h1, if_neg h2, if_pos h3]⟩))
  by_cases h4 : cmdOp w = 4
  · exact .inr (.inr (.inr (.inl ⟨h4, by
      rw [decodeWord, if_neg h1, if_neg h2, if_neg h3, if_pos h4]⟩)))
  · exact .inr (.inr (.inr (.inr ⟨⟨h1, h2, h3, h4⟩, by
      rw [decodeWord, if_neg h1, if_neg h2, if_neg h3, if_neg h4]⟩)))

end Sys2Proof.Laws
end

