-- ==== Sys2Proof/Laws/Schedule.lean ====
section
/-! SUPPORT. The schedule loop: its length, its prefixes, its registers. -/

namespace Sys2Proof.Laws

open Sys2Proof Sys2Proof.Machine

variable {w : Nat} (emit : BitVec w → RoundKey) (update : BitVec w → Nat → BitVec w)

@[simp] theorem scheduleFrom_length (k : BitVec w) (i n : Nat) :
    (scheduleFrom emit update k i n).length = n := by
  induction n generalizing k i with
  | zero => rfl
  | succ n ih => simp [scheduleFrom, ih]

/-- One more iteration at the end of the register's loop. -/
theorem registerFrom_succ (k : BitVec w) (i n : Nat) :
    registerFrom update k i (n + 1) = update (registerFrom update k i n) (i + n) := by
  induction n generalizing k i with
  | zero => rfl
  | succ n ih =>
    rw [registerFrom, ih, registerFrom, show i + 1 + n = i + (n + 1) by omega]

/-- One more iteration emits the register reached so far (41_key_schedule.md R121, R126). -/
theorem scheduleFrom_succ (k : BitVec w) (i n : Nat) :
    scheduleFrom emit update k i (n + 1) =
      scheduleFrom emit update k i n ++ [emit (registerFrom update k i n)] := by
  induction n generalizing k i with
  | zero => rfl
  | succ n ih => rw [scheduleFrom, ih, scheduleFrom, registerFrom, List.cons_append]

theorem scheduleFrom_getElem? (k : BitVec w) (i n j : Nat) (h : j < n) :
    (scheduleFrom emit update k i n)[j]? = some (emit (registerFrom update k i j)) := by
  induction n with
  | zero => omega
  | succ n ih =>
    rw [scheduleFrom_succ]
    by_cases hj : j < n
    · rw [List.getElem?_append_left (by simpa using hj), ih hj]
    · have : j = n := by omega
      subst this
      simp

@[simp] theorem ks80_length (k : Key80) (r : Nat) : (ks80 k r).length = r := scheduleFrom_length ..

@[simp] theorem ks128_length (k : Key128) (r : Nat) : (ks128 k r).length = r := scheduleFrom_length ..

@[simp] theorem initKeys_length (len : BitVec 8) (d : DataIn) (r : Nat) :
    (initKeys len d r).length = r := by unfold initKeys; split <;> simp

/-- One more round emits one more key and leaves the others. -/
theorem initKeys_succ (len : BitVec 8) (d : DataIn) (n : Nat) :
    initKeys len d (n + 1) = initKeys len d n ++
      [if len = 10 then emit80 (registerFrom update80 (keyOperand80 d) 1 n)
        else emit128 (registerFrom update128 (keyOperand128 d) 1 n)] := by
  unfold initKeys ks80 ks128
  split <;> rw [scheduleFrom_succ]

/-- The salt is the counter modulo 32 (41_key_schedule.md R132). -/
theorem salt_eq_ofNat_mod (i : Nat) : salt i = BitVec.ofNat 5 (i % 32) := by
  rw [salt, show i &&& 0x1F = i % 32 from Nat.and_two_pow_sub_one_eq_mod i 5]

theorem rotate80_getLsbD (k : Key80) (b : Nat) : (rotate80 k).getLsbD b =
    if b < 61 then k.getLsbD (19 + b) else decide (b - 61 < 19) && k.getLsbD (b - 61) := by
  change (k.extractLsb' 0 19 ++ k.extractLsb' 19 61 : BitVec (19 + 61)).getLsbD b = _
  rw [BitVec.getLsbD_append]
  split <;> simp_all

theorem substitute80_getLsbD (k : Key80) (b : Nat) : (substitute80 k).getLsbD b =
    if b < 76 then k.getLsbD b else (sbox (k.extractLsb' 76 4)).getLsbD (b - 76) := by
  change (sbox (k.extractLsb' 76 4) ++ k.extractLsb' 0 76 : BitVec (4 + 76)).getLsbD b = _
  rw [BitVec.getLsbD_append]
  split <;> simp_all

theorem rotate128_getLsbD (k : Key128) (b : Nat) : (rotate128 k).getLsbD b =
    if b < 61 then k.getLsbD (67 + b) else decide (b - 61 < 67) && k.getLsbD (b - 61) := by
  change (k.extractLsb' 0 67 ++ k.extractLsb' 67 61 : BitVec (67 + 61)).getLsbD b = _
  rw [BitVec.getLsbD_append]
  split <;> simp_all

theorem substitute128_getLsbD (k : Key128) (b : Nat) : (substitute128 k).getLsbD b =
    if b < 120 then k.getLsbD b
    else if b < 124 then (sbox (k.extractLsb' 120 4)).getLsbD (b - 120)
    else (sbox (k.extractLsb' 124 4)).getLsbD (b - 124) := by
  change (sbox (k.extractLsb' 124 4) ++
    (sbox (k.extractLsb' 120 4) ++ k.extractLsb' 0 120 : BitVec (4 + 120)) :
    BitVec (4 + (4 + 120))).getLsbD b = _
  rw [BitVec.getLsbD_append, BitVec.getLsbD_append]
  by_cases h : b < 120
  · simp [h, show b < 4 + 120 by omega]
  by_cases h' : b < 124
  · simp [h, h']
  · simp [h, h']

end Sys2Proof.Laws
end

