-- ==== Sys2Proof/Laws/State.lean ====
section
/-! SUPPORT. One lemma per field per update of the state, each true by rfl. -/

namespace Sys2Proof.Laws

open Sys2Proof.Machine

@[simp] theorem respond_keyValid (st : Status) (data : BitVec 64) (s : State) : (respond st data s).keyValid = s.keyValid := rfl
@[simp] theorem respond_ksize (st : Status) (data : BitVec 64) (s : State) : (respond st data s).ksize = s.ksize := rfl
@[simp] theorem respond_rounds (st : Status) (data : BitVec 64) (s : State) : (respond st data s).rounds = s.rounds := rfl
@[simp] theorem respond_rk (st : Status) (data : BitVec 64) (s : State) : (respond st data s).rk = s.rk := rfl
@[simp] theorem respond_fsm (st : Status) (data : BitVec 64) (s : State) : (respond st data s).fsm = .resp := rfl
@[simp] theorem respond_rspStatus (st : Status) (data : BitVec 64) (s : State) : (respond st data s).rspStatus = statusCode st := rfl
@[simp] theorem respond_rspData (st : Status) (data : BitVec 64) (s : State) : (respond st data s).rspData = data := rfl
@[simp] theorem respond_cmd (st : Status) (data : BitVec 64) (s : State) : (respond st data s).cmd = s.cmd := rfl
@[simp] theorem respond_din (st : Status) (data : BitVec 64) (s : State) : (respond st data s).din = s.din := rfl
@[simp] theorem respond_stateReg (st : Status) (data : BitVec 64) (s : State) : (respond st data s).stateReg = s.stateReg := rfl
@[simp] theorem respond_kreg (st : Status) (data : BitVec 64) (s : State) : (respond st data s).kreg = s.kreg := rfl
@[simp] theorem respond_rc (st : Status) (data : BitVec 64) (s : State) : (respond st data s).rc = s.rc := rfl
@[simp] theorem respond_resetApplied (st : Status) (data : BitVec 64) (s : State) : (respond st data s).resetApplied = s.resetApplied := rfl
@[simp] theorem respond_script (st : Status) (data : BitVec 64) (s : State) : (respond st data s).script = s.script := rfl
@[simp] theorem respond_tick (st : Status) (data : BitVec 64) (s : State) : (respond st data s).tick = s.tick := rfl

@[simp] theorem raise_keyValid (e : CmdError) (s : State) : (raise e s).keyValid = s.keyValid := rfl
@[simp] theorem raise_ksize (e : CmdError) (s : State) : (raise e s).ksize = s.ksize := rfl
@[simp] theorem raise_rounds (e : CmdError) (s : State) : (raise e s).rounds = s.rounds := rfl
@[simp] theorem raise_rk (e : CmdError) (s : State) : (raise e s).rk = s.rk := rfl
@[simp] theorem raise_fsm (e : CmdError) (s : State) : (raise e s).fsm = .resp := rfl
@[simp] theorem raise_rspStatus (e : CmdError) (s : State) : (raise e s).rspStatus = statusCode (errorStatus e) := rfl
@[simp] theorem raise_rspData (e : CmdError) (s : State) : (raise e s).rspData = errorPayload e := rfl
@[simp] theorem raise_cmd (e : CmdError) (s : State) : (raise e s).cmd = s.cmd := rfl
@[simp] theorem raise_din (e : CmdError) (s : State) : (raise e s).din = s.din := rfl
@[simp] theorem raise_stateReg (e : CmdError) (s : State) : (raise e s).stateReg = s.stateReg := rfl
@[simp] theorem raise_kreg (e : CmdError) (s : State) : (raise e s).kreg = s.kreg := rfl
@[simp] theorem raise_rc (e : CmdError) (s : State) : (raise e s).rc = s.rc := rfl
@[simp] theorem raise_resetApplied (e : CmdError) (s : State) : (raise e s).resetApplied = s.resetApplied := rfl
@[simp] theorem raise_script (e : CmdError) (s : State) : (raise e s).script = s.script := rfl
@[simp] theorem raise_tick (e : CmdError) (s : State) : (raise e s).tick = s.tick := rfl

@[simp] theorem accept_keyValid (w : CmdWord) (d : DataIn) (s : State) : (accept w d s).keyValid = s.keyValid := rfl
@[simp] theorem accept_ksize (w : CmdWord) (d : DataIn) (s : State) : (accept w d s).ksize = s.ksize := rfl
@[simp] theorem accept_rounds (w : CmdWord) (d : DataIn) (s : State) : (accept w d s).rounds = s.rounds := rfl
@[simp] theorem accept_rk (w : CmdWord) (d : DataIn) (s : State) : (accept w d s).rk = s.rk := rfl
@[simp] theorem accept_fsm (w : CmdWord) (d : DataIn) (s : State) : (accept w d s).fsm = .decode := rfl
@[simp] theorem accept_rspStatus (w : CmdWord) (d : DataIn) (s : State) : (accept w d s).rspStatus = s.rspStatus := rfl
@[simp] theorem accept_rspData (w : CmdWord) (d : DataIn) (s : State) : (accept w d s).rspData = s.rspData := rfl
@[simp] theorem accept_cmd (w : CmdWord) (d : DataIn) (s : State) : (accept w d s).cmd = w := rfl
@[simp] theorem accept_din (w : CmdWord) (d : DataIn) (s : State) : (accept w d s).din = d := rfl
@[simp] theorem accept_stateReg (w : CmdWord) (d : DataIn) (s : State) : (accept w d s).stateReg = s.stateReg := rfl
@[simp] theorem accept_kreg (w : CmdWord) (d : DataIn) (s : State) : (accept w d s).kreg = s.kreg := rfl
@[simp] theorem accept_rc (w : CmdWord) (d : DataIn) (s : State) : (accept w d s).rc = s.rc := rfl
@[simp] theorem accept_resetApplied (w : CmdWord) (d : DataIn) (s : State) : (accept w d s).resetApplied = s.resetApplied := rfl
@[simp] theorem accept_script (w : CmdWord) (d : DataIn) (s : State) : (accept w d s).script = s.script := rfl
@[simp] theorem accept_tick (w : CmdWord) (d : DataIn) (s : State) : (accept w d s).tick = s.tick := rfl

@[simp] theorem consume_keyValid (s : State) : (consume s).keyValid = s.keyValid := rfl
@[simp] theorem consume_ksize (s : State) : (consume s).ksize = s.ksize := rfl
@[simp] theorem consume_rounds (s : State) : (consume s).rounds = s.rounds := rfl
@[simp] theorem consume_rk (s : State) : (consume s).rk = s.rk := rfl
@[simp] theorem consume_fsm (s : State) : (consume s).fsm = .idle := rfl
@[simp] theorem consume_rspStatus (s : State) : (consume s).rspStatus = s.rspStatus := rfl
@[simp] theorem consume_rspData (s : State) : (consume s).rspData = s.rspData := rfl
@[simp] theorem consume_cmd (s : State) : (consume s).cmd = s.cmd := rfl
@[simp] theorem consume_din (s : State) : (consume s).din = s.din := rfl
@[simp] theorem consume_stateReg (s : State) : (consume s).stateReg = s.stateReg := rfl
@[simp] theorem consume_kreg (s : State) : (consume s).kreg = s.kreg := rfl
@[simp] theorem consume_rc (s : State) : (consume s).rc = s.rc := rfl
@[simp] theorem consume_resetApplied (s : State) : (consume s).resetApplied = s.resetApplied := rfl
@[simp] theorem consume_script (s : State) : (consume s).script = s.script := rfl
@[simp] theorem consume_tick (s : State) : (consume s).tick = s.tick := rfl

@[simp] theorem advance_keyValid (s : State) : (advance s).keyValid = s.keyValid := rfl
@[simp] theorem advance_ksize (s : State) : (advance s).ksize = s.ksize := rfl
@[simp] theorem advance_rounds (s : State) : (advance s).rounds = s.rounds := rfl
@[simp] theorem advance_rk (s : State) : (advance s).rk = s.rk := rfl
@[simp] theorem advance_fsm (s : State) : (advance s).fsm = s.fsm := rfl
@[simp] theorem advance_rspStatus (s : State) : (advance s).rspStatus = s.rspStatus := rfl
@[simp] theorem advance_rspData (s : State) : (advance s).rspData = s.rspData := rfl
@[simp] theorem advance_cmd (s : State) : (advance s).cmd = s.cmd := rfl
@[simp] theorem advance_din (s : State) : (advance s).din = s.din := rfl
@[simp] theorem advance_stateReg (s : State) : (advance s).stateReg = s.stateReg := rfl
@[simp] theorem advance_kreg (s : State) : (advance s).kreg = s.kreg := rfl
@[simp] theorem advance_rc (s : State) : (advance s).rc = s.rc := rfl
@[simp] theorem advance_resetApplied (s : State) : (advance s).resetApplied = s.resetApplied := rfl
@[simp] theorem advance_script (s : State) : (advance s).script = s.script.tail := rfl
@[simp] theorem advance_tick (s : State) : (advance s).tick = s.tick + 1 := rfl

@[simp] theorem rkWrite_keyValid (j : Nat) (k : RoundKey) (s : State) : (rkWrite j k s).keyValid = s.keyValid := rfl
@[simp] theorem rkWrite_ksize (j : Nat) (k : RoundKey) (s : State) : (rkWrite j k s).ksize = s.ksize := rfl
@[simp] theorem rkWrite_rounds (j : Nat) (k : RoundKey) (s : State) : (rkWrite j k s).rounds = s.rounds := rfl
@[simp] theorem rkWrite_rk (j : Nat) (k : RoundKey) (s : State) : (rkWrite j k s).rk = s.rk.set j k := rfl
@[simp] theorem rkWrite_fsm (j : Nat) (k : RoundKey) (s : State) : (rkWrite j k s).fsm = s.fsm := rfl
@[simp] theorem rkWrite_rspStatus (j : Nat) (k : RoundKey) (s : State) : (rkWrite j k s).rspStatus = s.rspStatus := rfl
@[simp] theorem rkWrite_rspData (j : Nat) (k : RoundKey) (s : State) : (rkWrite j k s).rspData = s.rspData := rfl
@[simp] theorem rkWrite_cmd (j : Nat) (k : RoundKey) (s : State) : (rkWrite j k s).cmd = s.cmd := rfl
@[simp] theorem rkWrite_din (j : Nat) (k : RoundKey) (s : State) : (rkWrite j k s).din = s.din := rfl
@[simp] theorem rkWrite_stateReg (j : Nat) (k : RoundKey) (s : State) : (rkWrite j k s).stateReg = s.stateReg := rfl
@[simp] theorem rkWrite_kreg (j : Nat) (k : RoundKey) (s : State) : (rkWrite j k s).kreg = s.kreg := rfl
@[simp] theorem rkWrite_rc (j : Nat) (k : RoundKey) (s : State) : (rkWrite j k s).rc = s.rc := rfl
@[simp] theorem rkWrite_resetApplied (j : Nat) (k : RoundKey) (s : State) : (rkWrite j k s).resetApplied = s.resetApplied := rfl
@[simp] theorem rkWrite_script (j : Nat) (k : RoundKey) (s : State) : (rkWrite j k s).script = s.script := rfl
@[simp] theorem rkWrite_tick (j : Nat) (k : RoundKey) (s : State) : (rkWrite j k s).tick = s.tick := rfl

@[simp] theorem rkWriteAll_keyValid (ks : List RoundKey) (s : State) : (rkWriteAll ks s).keyValid = s.keyValid := rfl
@[simp] theorem rkWriteAll_ksize (ks : List RoundKey) (s : State) : (rkWriteAll ks s).ksize = s.ksize := rfl
@[simp] theorem rkWriteAll_rounds (ks : List RoundKey) (s : State) : (rkWriteAll ks s).rounds = s.rounds := rfl
@[simp] theorem rkWriteAll_rk (ks : List RoundKey) (s : State) : (rkWriteAll ks s).rk = ks ++ s.rk.drop ks.length := rfl
@[simp] theorem rkWriteAll_fsm (ks : List RoundKey) (s : State) : (rkWriteAll ks s).fsm = s.fsm := rfl
@[simp] theorem rkWriteAll_rspStatus (ks : List RoundKey) (s : State) : (rkWriteAll ks s).rspStatus = s.rspStatus := rfl
@[simp] theorem rkWriteAll_rspData (ks : List RoundKey) (s : State) : (rkWriteAll ks s).rspData = s.rspData := rfl
@[simp] theorem rkWriteAll_cmd (ks : List RoundKey) (s : State) : (rkWriteAll ks s).cmd = s.cmd := rfl
@[simp] theorem rkWriteAll_din (ks : List RoundKey) (s : State) : (rkWriteAll ks s).din = s.din := rfl
@[simp] theorem rkWriteAll_stateReg (ks : List RoundKey) (s : State) : (rkWriteAll ks s).stateReg = s.stateReg := rfl
@[simp] theorem rkWriteAll_kreg (ks : List RoundKey) (s : State) : (rkWriteAll ks s).kreg = s.kreg := rfl
@[simp] theorem rkWriteAll_rc (ks : List RoundKey) (s : State) : (rkWriteAll ks s).rc = s.rc := rfl
@[simp] theorem rkWriteAll_resetApplied (ks : List RoundKey) (s : State) : (rkWriteAll ks s).resetApplied = s.resetApplied := rfl
@[simp] theorem rkWriteAll_script (ks : List RoundKey) (s : State) : (rkWriteAll ks s).script = s.script := rfl
@[simp] theorem rkWriteAll_tick (ks : List RoundKey) (s : State) : (rkWriteAll ks s).tick = s.tick := rfl

@[simp] theorem finishInit_keyValid (z : BitVec 1) (r : BitVec 8) (s : State) : (finishInit z r s).keyValid = true := rfl
@[simp] theorem finishInit_ksize (z : BitVec 1) (r : BitVec 8) (s : State) : (finishInit z r s).ksize = z := rfl
@[simp] theorem finishInit_rounds (z : BitVec 1) (r : BitVec 8) (s : State) : (finishInit z r s).rounds = r := rfl
@[simp] theorem finishInit_rk (z : BitVec 1) (r : BitVec 8) (s : State) : (finishInit z r s).rk = s.rk.take r.toNat ++ unspecifiedKeys s.tick r.toNat (Config.maxRounds - r.toNat) := rfl
@[simp] theorem finishInit_fsm (z : BitVec 1) (r : BitVec 8) (s : State) : (finishInit z r s).fsm = .resp := rfl
@[simp] theorem finishInit_rspStatus (z : BitVec 1) (r : BitVec 8) (s : State) : (finishInit z r s).rspStatus = 0 := rfl
@[simp] theorem finishInit_rspData (z : BitVec 1) (r : BitVec 8) (s : State) : (finishInit z r s).rspData = 0 := rfl
@[simp] theorem finishInit_cmd (z : BitVec 1) (r : BitVec 8) (s : State) : (finishInit z r s).cmd = s.cmd := rfl
@[simp] theorem finishInit_din (z : BitVec 1) (r : BitVec 8) (s : State) : (finishInit z r s).din = s.din := rfl
@[simp] theorem finishInit_stateReg (z : BitVec 1) (r : BitVec 8) (s : State) : (finishInit z r s).stateReg = s.stateReg := rfl
@[simp] theorem finishInit_kreg (z : BitVec 1) (r : BitVec 8) (s : State) : (finishInit z r s).kreg = Config.unspecified .kreg s.tick 128 := rfl
@[simp] theorem finishInit_rc (z : BitVec 1) (r : BitVec 8) (s : State) : (finishInit z r s).rc = Config.unspecified .rc s.tick 8 := rfl
@[simp] theorem finishInit_resetApplied (z : BitVec 1) (r : BitVec 8) (s : State) : (finishInit z r s).resetApplied = s.resetApplied := rfl
@[simp] theorem finishInit_script (z : BitVec 1) (r : BitVec 8) (s : State) : (finishInit z r s).script = s.script := rfl
@[simp] theorem finishInit_tick (z : BitVec 1) (r : BitVec 8) (s : State) : (finishInit z r s).tick = s.tick := rfl

@[simp] theorem finishCipher_keyValid (b : Block) (s : State) : (finishCipher b s).keyValid = s.keyValid := rfl
@[simp] theorem finishCipher_ksize (b : Block) (s : State) : (finishCipher b s).ksize = s.ksize := rfl
@[simp] theorem finishCipher_rounds (b : Block) (s : State) : (finishCipher b s).rounds = s.rounds := rfl
@[simp] theorem finishCipher_rk (b : Block) (s : State) : (finishCipher b s).rk = s.rk := rfl
@[simp] theorem finishCipher_fsm (b : Block) (s : State) : (finishCipher b s).fsm = .resp := rfl
@[simp] theorem finishCipher_rspStatus (b : Block) (s : State) : (finishCipher b s).rspStatus = 0 := rfl
@[simp] theorem finishCipher_rspData (b : Block) (s : State) : (finishCipher b s).rspData = b := rfl
@[simp] theorem finishCipher_cmd (b : Block) (s : State) : (finishCipher b s).cmd = s.cmd := rfl
@[simp] theorem finishCipher_din (b : Block) (s : State) : (finishCipher b s).din = s.din := rfl
@[simp] theorem finishCipher_stateReg (b : Block) (s : State) : (finishCipher b s).stateReg = Config.unspecified .stateReg s.tick 64 := rfl
@[simp] theorem finishCipher_kreg (b : Block) (s : State) : (finishCipher b s).kreg = s.kreg := rfl
@[simp] theorem finishCipher_rc (b : Block) (s : State) : (finishCipher b s).rc = Config.unspecified .rc s.tick 8 := rfl
@[simp] theorem finishCipher_resetApplied (b : Block) (s : State) : (finishCipher b s).resetApplied = s.resetApplied := rfl
@[simp] theorem finishCipher_script (b : Block) (s : State) : (finishCipher b s).script = s.script := rfl
@[simp] theorem finishCipher_tick (b : Block) (s : State) : (finishCipher b s).tick = s.tick := rfl

@[simp] theorem enterKs_keyValid (len : BitVec 8) (s : State) : (enterKs len s).keyValid = s.keyValid := rfl
@[simp] theorem enterKs_ksize (len : BitVec 8) (s : State) : (enterKs len s).ksize = s.ksize := rfl
@[simp] theorem enterKs_rounds (len : BitVec 8) (s : State) : (enterKs len s).rounds = s.rounds := rfl
@[simp] theorem enterKs_rk (len : BitVec 8) (s : State) : (enterKs len s).rk = s.rk := rfl
@[simp] theorem enterKs_fsm (len : BitVec 8) (s : State) : (enterKs len s).fsm = .ks := rfl
@[simp] theorem enterKs_rspStatus (len : BitVec 8) (s : State) : (enterKs len s).rspStatus = s.rspStatus := rfl
@[simp] theorem enterKs_rspData (len : BitVec 8) (s : State) : (enterKs len s).rspData = s.rspData := rfl
@[simp] theorem enterKs_cmd (len : BitVec 8) (s : State) : (enterKs len s).cmd = s.cmd := rfl
@[simp] theorem enterKs_din (len : BitVec 8) (s : State) : (enterKs len s).din = s.din := rfl
@[simp] theorem enterKs_stateReg (len : BitVec 8) (s : State) : (enterKs len s).stateReg = s.stateReg := rfl
@[simp] theorem enterKs_kreg (len : BitVec 8) (s : State) : (enterKs len s).kreg = (if len = 10 then kregWrite80 (keyOperand80 s.din) s.kreg else keyOperand128 s.din) := rfl
@[simp] theorem enterKs_rc (len : BitVec 8) (s : State) : (enterKs len s).rc = 1 := rfl
@[simp] theorem enterKs_resetApplied (len : BitVec 8) (s : State) : (enterKs len s).resetApplied = s.resetApplied := rfl
@[simp] theorem enterKs_script (len : BitVec 8) (s : State) : (enterKs len s).script = s.script := rfl
@[simp] theorem enterKs_tick (len : BitVec 8) (s : State) : (enterKs len s).tick = s.tick := rfl

@[simp] theorem enterCipher_keyValid (f : Fsm) (s : State) : (enterCipher f s).keyValid = s.keyValid := rfl
@[simp] theorem enterCipher_ksize (f : Fsm) (s : State) : (enterCipher f s).ksize = s.ksize := rfl
@[simp] theorem enterCipher_rounds (f : Fsm) (s : State) : (enterCipher f s).rounds = s.rounds := rfl
@[simp] theorem enterCipher_rk (f : Fsm) (s : State) : (enterCipher f s).rk = s.rk := rfl
@[simp] theorem enterCipher_fsm (f : Fsm) (s : State) : (enterCipher f s).fsm = f := rfl
@[simp] theorem enterCipher_rspStatus (f : Fsm) (s : State) : (enterCipher f s).rspStatus = s.rspStatus := rfl
@[simp] theorem enterCipher_rspData (f : Fsm) (s : State) : (enterCipher f s).rspData = s.rspData := rfl
@[simp] theorem enterCipher_cmd (f : Fsm) (s : State) : (enterCipher f s).cmd = s.cmd := rfl
@[simp] theorem enterCipher_din (f : Fsm) (s : State) : (enterCipher f s).din = s.din := rfl
@[simp] theorem enterCipher_stateReg (f : Fsm) (s : State) : (enterCipher f s).stateReg = blockOperand s.din := rfl
@[simp] theorem enterCipher_kreg (f : Fsm) (s : State) : (enterCipher f s).kreg = s.kreg := rfl
@[simp] theorem enterCipher_rc (f : Fsm) (s : State) : (enterCipher f s).rc = 0 := rfl
@[simp] theorem enterCipher_resetApplied (f : Fsm) (s : State) : (enterCipher f s).resetApplied = s.resetApplied := rfl
@[simp] theorem enterCipher_script (f : Fsm) (s : State) : (enterCipher f s).script = s.script := rfl
@[simp] theorem enterCipher_tick (f : Fsm) (s : State) : (enterCipher f s).tick = s.tick := rfl

@[simp] theorem resetEdge_keyValid (s : State) : (resetEdge s).keyValid = false := rfl
@[simp] theorem resetEdge_fsm (s : State) : (resetEdge s).fsm = .idle := rfl
@[simp] theorem resetEdge_resetApplied (s : State) : (resetEdge s).resetApplied = true := rfl
@[simp] theorem resetEdge_script (s : State) : (resetEdge s).script = s.script := rfl
@[simp] theorem resetEdge_tick (s : State) : (resetEdge s).tick = s.tick := rfl
@[simp] theorem resetEdge_rk (s : State) : (resetEdge s).rk = unspecifiedKeys s.tick 0 Config.maxRounds := rfl

@[simp] theorem placeCommand_keyValid (w : CmdWord) (s : State) : (placeCommand w s).keyValid = s.keyValid := rfl
@[simp] theorem placeCommand_ksize (w : CmdWord) (s : State) : (placeCommand w s).ksize = s.ksize := rfl
@[simp] theorem placeCommand_rounds (w : CmdWord) (s : State) : (placeCommand w s).rounds = s.rounds := rfl
@[simp] theorem placeCommand_rk (w : CmdWord) (s : State) : (placeCommand w s).rk = s.rk := rfl
@[simp] theorem placeCommand_fsm (w : CmdWord) (s : State) : (placeCommand w s).fsm = .decode := rfl
@[simp] theorem placeCommand_rspStatus (w : CmdWord) (s : State) : (placeCommand w s).rspStatus = s.rspStatus := rfl
@[simp] theorem placeCommand_rspData (w : CmdWord) (s : State) : (placeCommand w s).rspData = s.rspData := rfl
@[simp] theorem placeCommand_cmd (w : CmdWord) (s : State) : (placeCommand w s).cmd = w := rfl
@[simp] theorem placeCommand_din (w : CmdWord) (s : State) : (placeCommand w s).din = s.din := rfl
@[simp] theorem placeCommand_stateReg (w : CmdWord) (s : State) : (placeCommand w s).stateReg = s.stateReg := rfl
@[simp] theorem placeCommand_kreg (w : CmdWord) (s : State) : (placeCommand w s).kreg = s.kreg := rfl
@[simp] theorem placeCommand_rc (w : CmdWord) (s : State) : (placeCommand w s).rc = s.rc := rfl
@[simp] theorem placeCommand_resetApplied (w : CmdWord) (s : State) : (placeCommand w s).resetApplied = true := rfl
@[simp] theorem placeCommand_script (w : CmdWord) (s : State) : (placeCommand w s).script = Edge.mk false false 0 0 false .finish :: s.script := rfl
@[simp] theorem placeCommand_tick (w : CmdWord) (s : State) : (placeCommand w s).tick = s.tick := rfl

end Sys2Proof.Laws
end

