-- ==== Sys2Proof/Laws/Ops.lean ====
section
/-! SUPPORT. What the checks and the shared operations can do. -/

namespace Sys2Proof.Laws

open Sys2Proof Sys2Proof.Machine

theorem maxRounds_bounds : 32 ≤ Config.maxRounds ∧ Config.maxRounds ≤ 255 := by
  have := Config.extraRounds.isLt
  unfold Config.maxRounds
  omega

/-- 30_encoding.md R77. -/
theorem roundsLegal_iff (r : BitVec 8) :
    roundsLegal r = true ↔ 1 ≤ r.toNat ∧ r.toNat ≤ Config.maxRounds := by
  have hm := maxRounds_bounds
  have h0 : r = 0 ↔ r.toNat = 0 := by rw [BitVec.toNat_eq]; simp
  simp only [roundsLegal, Bool.and_eq_true, bne_iff_ne, ne_eq, h0, Bool.or_eq_true, decide_eq_true_eq]
  omega

theorem initCheck_eq_none_iff (len rnd : BitVec 8) :
    initCheck len rnd = none ↔ (len = 10 ∨ len = 16) ∧ roundsLegal rnd = true := by
  unfold initCheck
  by_cases h1 : len = 10
  · simp [h1]
  by_cases h2 : len = 16
  · simp [h2]
  · rw [if_pos ⟨h1, h2⟩]
    exact iff_of_false (by simp) fun h => h.1.elim h1 h2

theorem cipherCheck_eq_none_iff (v : Bool) (len : BitVec 8) :
    cipherCheck v len = none ↔ v = true ∧ len = 8 := by
  unfold cipherCheck
  cases v <;> simp

theorem initCheck_badLength (len rnd : BitVec 8) (h : len ≠ 10 ∧ len ≠ 16) :
    initCheck len rnd = some (.invalidKeyLength len) := if_pos h

theorem initCheck_badRounds (len rnd : BitVec 8) (h : len = 10 ∨ len = 16)
    (hr : ¬ (1 ≤ rnd.toNat ∧ rnd.toNat ≤ Config.maxRounds)) :
    initCheck len rnd = some (.invalidRounds rnd) := by
  rw [initCheck, if_neg (fun hl => h.elim hl.1 hl.2), if_neg (fun hl => hr ((roundsLegal_iff rnd).1 hl))]

theorem cipherCheck_noKey (len : BitVec 8) : cipherCheck false len = some .noKey := rfl

theorem cipherCheck_badLength (len : BitVec 8) (h : len ≠ 8) :
    cipherCheck true len = some (.invalidBlockLength len) := by
  rw [cipherCheck, if_neg (by decide), if_pos h]

@[simp] theorem unspecifiedKeys_length (tick start n : Nat) :
    (unspecifiedKeys tick start n).length = n := by simp [unspecifiedKeys]

theorem instanceKeys_length (s : State) : (instanceKeys s).length = s.rounds.toNat := by
  simp [instanceKeys]

/-- The keys of an instance whose rounds the store holds are the first entries of the store. -/
theorem instanceKeys_eq_take (s : State) (h : s.rounds.toNat ≤ s.rk.length) :
    instanceKeys s = s.rk.take s.rounds.toNat := by
  apply List.ext_getElem
  · simp [instanceKeys, h]
  · intro n h1 h2
    have hn : n < s.rk.length := by simp [instanceKeys] at h1; omega
    simp [instanceKeys, rkRead, hn]

/-- Every error is reported with a status from 1 to 5. -/
theorem errorStatus_range (e : CmdError) :
    1 ≤ (statusCode (errorStatus e)).toNat ∧ (statusCode (errorStatus e)).toNat ≤ 5 := by
  cases e <;> simp [errorStatus, statusCode]

/-- INIT answers a next state: an error's, or the end of a successful INIT. -/
theorem execInit_cases (len rnd : BitVec 8) (rsv : BitVec 12) (s : State) :
    (∃ e, initCheck len rnd = some e ∧ execInit len rnd rsv s = .next (raise e s)) ∨
    (initCheck len rnd = none ∧ execInit len rnd rsv s =
      .next (finishInit (initKsize len) rnd (rkWriteAll (initKeys len s.din rnd.toNat) s))) := by
  unfold execInit
  cases initCheck len rnd with
  | some e => exact .inl ⟨e, rfl, rfl⟩
  | none => exact .inr ⟨rfl, rfl⟩

/-- ENCRYPT and DECRYPT answer a next state: an error's, or the end of a successful command. -/
theorem cipherCommand_cases (cipher : Block → List RoundKey → Block) (len : BitVec 8) (s : State) :
    (∃ e, cipherCheck s.keyValid len = some e ∧ cipherCommand cipher len s = .next (raise e s)) ∨
    (cipherCheck s.keyValid len = none ∧ cipherCommand cipher len s =
      .next (finishCipher (cipher (blockOperand s.din) (instanceKeys s)) s)) := by
  unfold cipherCommand
  cases cipherCheck s.keyValid len with
  | some e => exact .inl ⟨e, rfl, rfl⟩
  | none => exact .inr ⟨rfl, rfl⟩

/-- The store after a successful INIT: the emitted keys first (41_key_schedule.md R134). -/
theorem finishInit_rkWriteAll_rk (z : BitVec 1) (r : BitVec 8) (ks : List RoundKey) (s : State)
    (h : ks.length = r.toNat) :
    (finishInit z r (rkWriteAll ks s)).rk =
      ks ++ unspecifiedKeys s.tick r.toNat (Config.maxRounds - r.toNat) := by
  simp [← h]

end Sys2Proof.Laws
end

