-- ==== Sys2Proof/Laws/PerInstr.lean ====
section
/-! SUPPORT. For every command: its word carries its opcode in OP (30_encoding.md R75). -/

namespace Sys2Proof.Laws

open Sys2Proof

theorem cmdOp_packWord (op : BitVec 4) (len rnd : BitVec 8) (rsv : BitVec 12) :
    cmdOp (packWord op len rnd rsv) = op := by
  apply BitVec.eq_of_getLsbD_eq
  intro b hb
  rw [cmdOp, BitVec.getLsbD_extractLsb', packWord_getLsbD _ _ _ _ _ (by omega)]
  simp [hb]

/-- The word of a command has the command's opcode in OP. -/
def OpField.Statement (i : Instr) : Prop := cmdOp (encode i) = opcode i

theorem OpField.init (len rnd : BitVec 8) (rsv : BitVec 12) :
    OpField.Statement (.init len rnd rsv) := cmdOp_packWord ..

theorem OpField.encrypt (len rnd : BitVec 8) (rsv : BitVec 12) :
    OpField.Statement (.encrypt len rnd rsv) := cmdOp_packWord ..

theorem OpField.decrypt (len rnd : BitVec 8) (rsv : BitVec 12) :
    OpField.Statement (.decrypt len rnd rsv) := cmdOp_packWord ..

theorem OpField.blockSize (len rnd : BitVec 8) (rsv : BitVec 12) :
    OpField.Statement (.blockSize len rnd rsv) := cmdOp_packWord ..

end Sys2Proof.Laws
end

