-- ==== Sys2Proof/Laws/Steps.lean ====
section
/-! SUPPORT. Everything an edge can do, said once. -/

namespace Sys2Proof.Laws

open Sys2Proof Sys2Proof.Machine

theorem runLatched_ok (s : State) (i : Instr) (h : decodeWord s.cmd = .ok i) :
    runLatched s = exec i s := by simp [runLatched, h]

theorem runLatched_error (s : State) (e : DecodeError) (h : decodeWord s.cmd = .error e) :
    runLatched s = .next (illegalCommand s) := by simp [runLatched, h]

/-- The six ways the latched command ends: an error's response, a successful INIT, a successful
ENCRYPT or DECRYPT, or BLOCK_SIZE. -/
theorem runLatched_cases (s : State) :
    (∃ e, runLatched s = .next (raise e s)) ∨
    (cmdOp s.cmd = 1 ∧ initCheck (cmdLen s.cmd) (cmdRnd s.cmd) = none ∧
      runLatched s = .next (finishInit (initKsize (cmdLen s.cmd)) (cmdRnd s.cmd)
        (rkWriteAll (initKeys (cmdLen s.cmd) s.din (cmdRnd s.cmd).toNat) s))) ∨
    (cmdOp s.cmd = 2 ∧ cipherCheck s.keyValid (cmdLen s.cmd) = none ∧
      runLatched s = .next (finishCipher (encryptBlock (blockOperand s.din) (instanceKeys s)) s)) ∨
    (cmdOp s.cmd = 3 ∧ cipherCheck s.keyValid (cmdLen s.cmd) = none ∧
      runLatched s = .next (finishCipher (decryptBlock (blockOperand s.din) (instanceKeys s)) s)) ∨
    (cmdOp s.cmd = 4 ∧ runLatched s = .next (respondBlockSize s)) := by
  obtain ⟨ho, h⟩ | ⟨ho, h⟩ | ⟨ho, h⟩ | ⟨ho, h⟩ | ⟨ho, h⟩ := decodeWord_cases s.cmd
  · rw [runLatched_ok s _ h]
    obtain ⟨e, -, hx⟩ | ⟨hc, hx⟩ := execInit_cases (cmdLen s.cmd) (cmdRnd s.cmd) (cmdRsv s.cmd) s
    · exact .inl ⟨e, hx⟩
    · exact .inr (.inl ⟨ho, hc, hx⟩)
  · rw [runLatched_ok s _ h]
    obtain ⟨e, -, hx⟩ | ⟨hc, hx⟩ := cipherCommand_cases encryptBlock (cmdLen s.cmd) s
    · exact .inl ⟨e, hx⟩
    · exact .inr (.inr (.inl ⟨ho, hc, hx⟩))
  · rw [runLatched_ok s _ h]
    obtain ⟨e, -, hx⟩ | ⟨hc, hx⟩ := cipherCommand_cases decryptBlock (cmdLen s.cmd) s
    · exact .inl ⟨e, hx⟩
    · exact .inr (.inr (.inr (.inl ⟨ho, hc, hx⟩)))
  · rw [runLatched_ok s _ h]
    exact .inr (.inr (.inr (.inr ⟨ho, rfl⟩)))
  · rw [runLatched_error s _ h]
    exact .inl ⟨.illegalCommand s.cmd, rfl⟩

/-- Everything a step can do. `u` is the state with the edge taken off the script. -/
theorem step_cases (s : State) :
    ((nextEdge s).rst = true ∧ step s = .next (resetEdge (advance s))) ∨
    ((nextEdge s).rst = false ∧
      ((s.resetApplied = false ∧ step s = .refused .beforeFirstReset) ∨
      (s.resetApplied = true ∧ phase s = .idle ∧ (nextEdge s).cmdValid = false ∧
        step s = .next (advance s)) ∨
      (s.resetApplied = true ∧ phase s = .idle ∧ (nextEdge s).cmdValid = true ∧
        step s = .next (accept (nextEdge s).cmdWord (nextEdge s).din (advance s))) ∨
      (s.resetApplied = true ∧ phase s = .busy ∧ (nextEdge s).pace = .hold ∧
        step s = .next (advance s)) ∨
      (s.resetApplied = true ∧ phase s = .busy ∧ (nextEdge s).pace = .seq ∧
        step s = .next (sequencerStep (advance s))) ∨
      (s.resetApplied = true ∧ phase s = .busy ∧ (nextEdge s).pace = .finish ∧
        step s = runLatched (advance s)) ∨
      (s.resetApplied = true ∧ phase s = .resp ∧ (nextEdge s).rspReady = false ∧
        step s = .next (advance s)) ∨
      (s.resetApplied = true ∧ phase s = .resp ∧ (nextEdge s).rspReady = true ∧
        step s = .next (consume (advance s))))) := by
  have hp : phase (advance s) = phase s := rfl
  unfold step clockEdge
  rw [hp, advance_resetApplied]
  cases (nextEdge s).rst
  · refine .inr ⟨rfl, ?_⟩
    cases s.resetApplied
    · exact .inl ⟨rfl, rfl⟩
    · refine .inr ?_
      cases phase s
      · cases (nextEdge s).cmdValid <;> simp
      · cases (nextEdge s).pace <;> simp [busyEdge]
      · cases (nextEdge s).rspReady <;> simp
  · exact .inl ⟨rfl, rfl⟩

end Sys2Proof.Laws
end

