-- ==== Sys2Proof/Laws/Transforms.lean ====
section
/-! SUPPORT. What the bit and nibble writers do, bit by bit, and what a whole layer does. -/

namespace Sys2Proof.Laws

open Sys2Proof Sys2Proof.Machine

theorem writeBit_getLsbD (t : Block) (j : BitIndex) (b : Bool) (n : BitIndex) :
    (writeBit t j b).getLsbD n.val = if n = j then b else t.getLsbD n.val := by
  have hn : n.val < 64 := n.isLt
  by_cases h : n = j
  · subst h
    cases b <;> simp [writeBit]
  · have hne : n.val ≠ j.val := fun e => h (Fin.ext e)
    have h1 : (1#64 <<< j.val).getLsbD n.val = false := by
      simp only [BitVec.getLsbD_shiftLeft, BitVec.getLsbD_one]
      by_cases hl : n.val < j.val
      · simp [hl]
      · simp [show n.val - j.val ≠ 0 by omega]
    have h2 : ((BitVec.ofBool b).setWidth 64 <<< j.val).getLsbD n.val = false := by
      simp only [BitVec.getLsbD_shiftLeft, BitVec.getLsbD_setWidth]
      by_cases hl : n.val < j.val
      · simp [hl]
      · simp [BitVec.getLsbD_of_ge (BitVec.ofBool b) (n.val - j.val) (by omega)]
    simp only [writeBit, BitVec.getLsbD_or, BitVec.getLsbD_and, BitVec.getLsbD_not, h1, h2, if_neg h,
      hn]
    simp

/-- Writing `s`'s bits through an injective wiring `p`: the bit at `p i` is `s`'s bit `i` once `i` has
been visited, and is untouched before. -/
theorem foldl_writeBit_getLsbD (p : BitIndex → BitIndex) (hp : Function.Injective p) (s : Block)
    (l : List BitIndex) (t : Block) (i : BitIndex) :
    (l.foldl (fun t i => writeBit t (p i) (s.getLsbD i.val)) t).getLsbD (p i).val =
      if i ∈ l then s.getLsbD i.val else t.getLsbD (p i).val := by
  induction l generalizing t with
  | nil => simp
  | cons a l ih =>
    rw [List.foldl_cons, ih, writeBit_getLsbD]
    by_cases h : i ∈ l
    · simp [h]
    · by_cases ha : i = a
      · simp [ha]
      · simp [h, ha, hp.ne ha]

/-- A layer that moves bits through an injective wiring puts input bit `i` at output bit `p i`. -/
theorem moveBits_getLsbD (p : BitIndex → BitIndex) (hp : Function.Injective p) (s : Block)
    (i : BitIndex) : (moveBits p s).getLsbD (p i).val = s.getLsbD i.val := by
  rw [moveBits, foldl_writeBit_getLsbD p hp, if_pos (List.mem_finRange i)]

theorem writeNibble_getLsbD (t : Block) (k : Nat) (n : Nibble) (b : Nat) (hb : b < 64) :
    (writeNibble t k n).getLsbD b =
      if 4 * k ≤ b ∧ b < 4 * k + 4 then n.getLsbD (b - 4 * k) else t.getLsbD b := by
  have hF : ∀ m, (0xF#64).getLsbD m = decide (m < 4) := by
    intro m
    by_cases h : m < 64
    · revert m; decide
    · rw [BitVec.getLsbD_of_ge _ _ (by omega)]; simp; omega
  simp only [writeNibble, BitVec.getLsbD_or, BitVec.getLsbD_and, BitVec.getLsbD_not,
    BitVec.getLsbD_shiftLeft, BitVec.getLsbD_setWidth, hF, hb]
  by_cases h1 : b < 4 * k
  · simp [h1, show ¬ 4 * k ≤ b by omega]
  by_cases h2 : b < 4 * k + 4
  · simp [h1, h2, show 4 * k ≤ b by omega, show b - 4 * k < 64 by omega, show b - 4 * k < 4 by omega]
  · simp [h1, h2, BitVec.getLsbD_of_ge n (b - 4 * k) (by omega), show ¬ b - 4 * k < 4 by omega]

theorem foldl_writeNibble_getLsbD (g : Nat → Nibble) (m : Nat) (t : Block) (b : Nat) (hb : b < 64) :
    ((List.range m).foldl (fun t k => writeNibble t k (g k)) t).getLsbD b =
      if b < 4 * m then (g (b / 4)).getLsbD (b % 4) else t.getLsbD b := by
  induction m with
  | zero => simp
  | succ m ih =>
    rw [List.range_succ, List.foldl_append, List.foldl_cons, List.foldl_nil,
      writeNibble_getLsbD _ _ _ _ hb, ih]
    by_cases h : 4 * m ≤ b ∧ b < 4 * m + 4
    · have hq : b / 4 = m := by omega
      have hr : b % 4 = b - 4 * m := by omega
      simp [h.1, h.2, hq, hr, show b < 4 * (m + 1) by omega]
    · by_cases h' : b < 4 * m
      · simp [h', show ¬ 4 * m ≤ b by omega, show b < 4 * (m + 1) by omega]
      · rw [if_neg h, if_neg h', if_neg (by omega)]

/-- A nibble-wise layer, bit by bit. -/
theorem mapNibbles_getLsbD (f : Nibble → Nibble) (s : Block) (b : Nat) (hb : b < 64) :
    (mapNibbles f s).getLsbD b = (f (nibble s (b / 4))).getLsbD (b % 4) := by
  rw [mapNibbles, foldl_writeNibble_getLsbD (fun k => f (nibble s k)) 16 0 b hb, if_pos (by omega)]

/-- A nibble-wise layer, nibble by nibble. -/
theorem nibble_mapNibbles (f : Nibble → Nibble) (s : Block) (k : Nat) (hk : k < 16) :
    nibble (mapNibbles f s) k = f (nibble s k) := by
  apply BitVec.eq_of_getLsbD_eq
  intro i hi
  rw [nibble, BitVec.getLsbD_extractLsb', mapNibbles_getLsbD _ _ _ (by omega)]
  simp [hi, show (4 * k + i) / 4 = k by omega, show (4 * k + i) % 4 = i by omega]

/-- Two blocks with the same 16 nibbles are the same block. -/
theorem block_ext_nibble {s t : Block} (h : ∀ k, k < 16 → nibble s k = nibble t k) : s = t := by
  apply BitVec.eq_of_getLsbD_eq
  intro b hb
  have := congrArg (fun n : Nibble => n.getLsbD (b % 4)) (h (b / 4) (by omega))
  simpa [nibble, Nat.mod_lt, show 4 * (b / 4) + b % 4 = b by omega] using this

theorem pbox_injective : Function.Injective pbox := by decide +kernel

theorem pboxInv_injective : Function.Injective pboxInv := by decide +kernel

end Sys2Proof.Laws
end

