-- ==== Sys2Proof/Tests/Slice0.lean ====
section
/-! SUPPORT. The author's tests. Expected values come from spec/ (95_test_vectors.md and the rules named
at each test). The theorems named witness_… show states and operands that meet the hypotheses of the
statement they name. -/

namespace Sys2Proof.Tests

open Sys2Proof Sys2Proof.Machine Sys2Proof.Laws

/-! ### WellFormed: an ill-formed term for each check -/

theorem test_wellFormed_accepts : (Instr.init 10 32 0).wellFormed ∧ (Instr.encrypt 8 0 0).wellFormed ∧
    (Instr.decrypt 8 0 0).wellFormed ∧ (Instr.blockSize 0 0 0).wellFormed := by decide

theorem test_wellFormed_refuses_rsv : ¬ (Instr.init 10 32 1).wellFormed ∧
    ¬ (Instr.encrypt 8 0 1).wellFormed ∧ ¬ (Instr.decrypt 8 0 1).wellFormed ∧
    ¬ (Instr.blockSize 0 0 1).wellFormed := by decide

theorem test_wellFormed_refuses_rnd : ¬ (Instr.encrypt 8 1 0).wellFormed ∧
    ¬ (Instr.decrypt 8 1 0).wellFormed ∧ ¬ (Instr.blockSize 0 1 0).wellFormed := by decide

theorem test_wellFormed_refuses_len : ¬ (Instr.blockSize 1 0 0).wellFormed := by decide

theorem test_operandFits_refuses : operandFits 17 0 = false ∧ operandFits 1 256 = false ∧
    operandFits 1 255 = true := by decide

theorem test_roundsFit_refuses : roundsFit 256 = false ∧ roundsFit 255 = true := by decide

/-! ### Decoding: words written out field by field from R74 (RSV, RND, LEN, OP) and R75 -/

theorem test_decode_init :
    decodeWord (0b000000000000_00100000_00001010_0001#32) = .ok (.init 10 32 0) := by decide

theorem test_decode_encrypt :
    decodeWord (0b000000000001_00000010_00001000_0010#32) = .ok (.encrypt 8 2 1) := by decide

theorem test_decode_decrypt :
    decodeWord (0b100000000000_10000000_10000001_0011#32) = .ok (.decrypt 129 128 2048) := by decide

theorem test_decode_blockSize :
    decodeWord (0b111111111111_11111111_11111111_0100#32) = .ok (.blockSize 255 255 4095) := by decide

/-- R86: OP 0, 5 and 15. -/
theorem test_decode_illegal : decodeWord 0x00000090 = .error (.illegalOp 0) ∧
    decodeWord 0xABC12345 = .error (.illegalOp 5) ∧ decodeWord 0x0000000F = .error (.illegalOp 15) := by
  decide

theorem test_encode_fields : encode (.decrypt 129 128 2048) =
    0b100000000000_10000000_10000001_0011#32 := by decide

theorem test_decodeTableWord : decodeTableWord 32 0x000200A1 = some (.init 10 32 0) ∧
    decodeTableWord 8 0x000200A1 = some (.init 10 0 0) ∧ decodeTableWord 32 5 = none := by decide

/-! ### The datapath functions (95_test_vectors.md sections 1 to 3) -/

/-- T-SUB-3. -/
theorem test_substitution : substitutionLayer 0x0123456789ABCDEF = 0xC56B90AD3EF84712 ∧
    substitutionLayerInv 0x0123456789ABCDEF = 0x5EF8C12DB463079A := by decide +kernel

/-- T-PERM-10. -/
theorem test_permutation : permutationLayer 0x0123456789ABCDEF = 0x00FF0F0F33335555 ∧
    permutationLayerInv 0x0123456789ABCDEF = 0x3500350F35F035FF := by decide +kernel

/-- T-KAT-1 and T-KAT-4. -/
theorem test_present80 : encryptBlock 0 (ks80 0 32) = 0x5579C1387B228445 ∧
    encryptBlock 0xFFFFFFFFFFFFFFFF (ks80 0xFFFFFFFFFFFFFFFFFFFF 32) = 0x3333DCD3213210D2 := by
  decide +kernel

/-- T-KAT-9. -/
theorem test_present128 : encryptBlock 0x0123456789ABCDEF
    (ks128 0x0123456789ABCDEF0123456789ABCDEF 32) = 0x0E9D28685E671DD6 := by decide +kernel

/-! ### One step each, on states of at most two rounds -/

/-- The answer of a step that goes on. -/
def answer : Host.Outcome State Fault Refusal → Option (BitVec 4 × BitVec 64)
  | .next t => some (t.rspStatus, t.rspData)
  | .fault _ => none
  | .refused _ => none

/-- The instance of an outcome: KEY_VALID, KSIZE, ROUNDS and the first `n` keys. -/
def instanceAfter (n : Nat) : Host.Outcome State Fault Refusal →
    Option (Bool × BitVec 1 × BitVec 8 × List RoundKey)
  | .next t => some (t.keyValid, t.ksize, t.rounds, t.rk.take n)
  | .fault _ => none
  | .refused _ => none

/-- The core with a two-round instance of the key 0x0123456789ABCDEF0123 and the block
0x0123456789ABCDEF on DIN (95_test_vectors.md T-2R-2). -/
def keyed : State :=
  { finishInit 0 2 (rkWriteAll (ks80 0x0123456789ABCDEF0123 2) State.reset) with
    din := 0x0123456789ABCDEF0000000000000000 }

/-- `keyed`, in a control state, with a latched command and a script. -/
def at_ (f : Fsm) (w : CmdWord) (es : List Edge) : State := { keyed with fsm := f, cmd := w, script := es }

/-- R136: the example of INIT at two rounds; LEN 10 with RND 2. -/
theorem test_init80 : answer (step (State.reset.withFetchWord 32 0x000020A1)) = some (0, 0) ∧
    instanceAfter 2 (step (State.reset.withFetchWord 32 0x000020A1)) =
      some (true, 0, 2, [0, 0xC000000000000000]) := by decide +kernel

/-- R126 to R130: LEN 16 with RND 2. -/
theorem test_init128 : instanceAfter 2 (step (State.reset.withFetchWord 32 0x00002101)) =
    some (true, 1, 2, [0, 0xCC00000000000000]) := by decide +kernel

/-- T-2R-2. -/
theorem test_encrypt : answer (step (keyed.withFetchWord 32 0x00000082)) =
    some (0, 0xEFDB9FDB68ACF135) := by decide +kernel

/-- T-2R-2, the other way. -/
theorem test_decrypt :
    answer (step ({ keyed with din := 0xEFDB9FDB68ACF1350000000000000000 }.withFetchWord 32 0x00000083)) =
      some (0, 0x0123456789ABCDEF) := by decide +kernel

/-- R177, before any INIT. -/
theorem test_blockSize : answer (step (State.reset.withFetchWord 32 4)) = some (0, 8) := by
  decide +kernel

/-- T-ERR-1, T-ERR-2 and T-ERR-10: the instance is kept. -/
theorem test_init_errors : answer (step (State.reset.withFetchWord 32 0x00020091)) = some (1, 9) ∧
    answer (step (keyed.withFetchWord 32 0x000200C1)) = some (1, 12) ∧
    answer (step (keyed.withFetchWord 32 0x000000A1)) = some (3, 0) ∧
    instanceAfter 1 (step (keyed.withFetchWord 32 0x000000A1)) =
      some (true, 0, 2, [0x0123456789ABCDEF]) := by decide +kernel

/-- T-ERR-5, T-ERR-6, T-ERR-8 and T-ERR-9. -/
theorem test_cipher_errors : answer (step (keyed.withFetchWord 32 0x00000072)) = some (2, 7) ∧
    answer (step (keyed.withFetchWord 32 0x00000093)) = some (2, 9) ∧
    answer (step (State.reset.withFetchWord 32 0x00000082)) = some (4, 0) ∧
    answer (step (State.reset.withFetchWord 32 0x00000083)) = some (4, 0) := by decide +kernel

/-- T-ERR-15 and T-PRI-1 to T-PRI-3. -/
theorem test_check_order : answer (step (keyed.withFetchWord 32 0xABC12345)) = some (5, 0xABC12345) ∧
    answer (step (State.reset.withFetchWord 32 0x00000091)) = some (1, 9) ∧
    answer (step (State.reset.withFetchWord 32 0x00000072)) = some (4, 0) ∧
    answer (step (State.reset.withFetchWord 32 0x00000090)) = some (5, 0x90) := by decide +kernel

/-- R230: a reset of a core with an instance and a response. -/
theorem test_reset_edge : (instanceAfter 0 (clockEdge { rst := true } keyed)).map (·.1) = some false := by
  decide +kernel

/-- R88: lanes 0 to 9, lanes 0 to 7, P2 step 3, and RESET. -/
theorem test_assemble :
    assemble (.init80 0x0123456789ABCDEF0123 (some 2)) =
      some (0x000020A1, 0x0123456789ABCDEF0123000000000000) ∧
    assemble (.encrypt 0x0123456789ABCDEF none) =
      some (0x00000082, 0x0123456789ABCDEF0000000000000000) ∧
    assemble (.init 0x111111111111111111111111 12 (some 32)) =
      some (0x000200C1, 0x11111111111111111111111100000000) ∧
    assemble (.init 0 17 none) = none ∧ driveLine .reset = some [{ rst := true }] := by decide +kernel

/-- Scenario C as a program: one round, the zero key and block. -/
theorem test_scenarioC :
    (driveProgram [.init80 0 (some 1), .encrypt 0 none]).map
      (fun es => observe es.length { State.reset with script := es }) = some [(0, 0), (0, 0)] := by
  decide +kernel

/-! ### The invariant holds of states of every kind -/

theorem keyed_rk : keyed.rk = ks80 0x0123456789ABCDEF0123 2 ++
    unspecifiedKeys 0 2 (Config.maxRounds - 2) := by
  simp [keyed, State.reset]

theorem keyed_keys (s : State) (h : s.rk = keyed.rk) (hr : s.rounds = 2) :
    instanceKeys s = ks80 0x0123456789ABCDEF0123 2 := by
  rw [instanceKeys_eq_take s (by rw [h, hr, keyed_rk]; simp), h, hr, keyed_rk]
  simp

theorem keyed_scheduled (s : State) (h : s.rk = keyed.rk) (hr : s.rounds = 2) (hz : s.ksize = 0) :
    KeysScheduled s := .inl ⟨hz, 0x0123456789ABCDEF0123, by rw [keyed_keys s h hr, hr]; rfl⟩

theorem rounds_legal (r : BitVec 8) (h : 1 ≤ r.toNat) (h' : r.toNat ≤ 32) :
    1 ≤ r.toNat ∧ r.toNat ≤ Config.maxRounds := ⟨h, Nat.le_trans h' maxRounds_bounds.1⟩

theorem keyed_size : keyed.rk.length = Config.maxRounds := by
  have := maxRounds_bounds
  rw [keyed_rk]
  simp
  omega

/-- The invariant in IDLE, in RESP and in the decode sub-state, whatever is latched. -/
theorem at_inv (f : Fsm) (w : CmdWord) (es : List Edge) (hf : f = .idle ∨ f = .resp ∨ f = .decode) :
    CoreInv (at_ f w es) where
  resetApplied := rfl
  rkSize := keyed_size
  roundsLegal _ := rounds_legal 2 (by decide) (by decide)
  keysScheduled _ _ := keyed_scheduled _ rfl rfl rfl
  statusLegal _ := show (0 : Nat) ≤ 5 by decide
  ks h := by rcases hf with h' | h' | h' <;> (subst h'; cases h)
  enc h := by rcases hf with h' | h' | h' <;> (subst h'; cases h)
  dec h := by rcases hf with h' | h' | h' <;> (subst h'; cases h)

/-- A core in `KS` at its first iteration, over an older instance. -/
def inKs : State := enterKs 10 (at_ .decode 0x000020A1 [])

theorem witness_inv_ks : CoreInv inKs where
  resetApplied := rfl
  rkSize := keyed_size
  roundsLegal _ := rounds_legal 2 (by decide) (by decide)
  keysScheduled _ h := absurd rfl h
  statusLegal h := by cases h
  ks _ := {
    op := by decide
    checked := by decide
    counter := by decide
    emitted := rfl
    register80 := fun _ => BitVec.extractLsb'_append_eq_right
    register128 := fun h => absurd rfl h }
  enc h := by cases h
  dec h := by cases h

/-- A core in `ENC` at its first round. -/
def inEnc : State := enterCipher .enc (at_ .decode 0x00000082 [])

theorem witness_inv_enc : CoreInv inEnc where
  resetApplied := rfl
  rkSize := keyed_size
  roundsLegal _ := rounds_legal 2 (by decide) (by decide)
  keysScheduled _ _ := keyed_scheduled _ rfl rfl rfl
  statusLegal h := by cases h
  ks h := by cases h
  enc _ := ⟨by decide, by decide, by decide, rfl⟩
  dec h := by cases h

/-- A core in `DEC` at its first round. -/
def inDec : State := enterCipher .dec (at_ .decode 0x00000083 [])

theorem witness_inv_dec : CoreInv inDec where
  resetApplied := rfl
  rkSize := keyed_size
  roundsLegal _ := rounds_legal 2 (by decide) (by decide)
  keysScheduled _ _ := keyed_scheduled _ rfl rfl rfl
  statusLegal h := by cases h
  ks h := by cases h
  enc h := by cases h
  dec _ := ⟨by decide, by decide, by decide, rfl⟩

/-! ### Witnesses: hypotheses that some state and operands meet -/

theorem witness_EncodeOfDecode : decodeWord 0xFFFFFFF4 = .ok (.blockSize 255 255 4095) := by decide

/-- Nibbles 0 and 15 (SubstitutionActsOnEachNibble); the four fixed bits (PermutationMovesEachBit). -/
theorem witness_layers : (substitutionLayer 0x0FFFFFFFFFFFFFF1).extractLsb' 0 4 = 5 ∧
    (substitutionLayer 0x0FFFFFFFFFFFFFF1).extractLsb' 60 4 = 0xC ∧
    permutationLayer 0x8000040000200001 = 0x8000040000200001 := by decide +kernel

/-- The edges of the moved, kept and salted ranges (KeySchedule80UpdateSteps, …128…). -/
theorem witness_schedule_bits : (rotate80 (1 <<< 79)).getLsbD 60 ∧ (substitute80 (1 <<< 75)).getLsbD 75 ∧
    (salt80 (1 <<< 14) 31).getLsbD 14 ∧ (salt80 (1 <<< 20) 31).getLsbD 20 ∧
    (rotate128 (1 <<< 127)).getLsbD 60 ∧ (substitute128 (1 <<< 119)).getLsbD 119 ∧
    (salt128 (1 <<< 61) 31).getLsbD 61 ∧ (salt128 (1 <<< 67) 31).getLsbD 67 := by decide +kernel

/-- The last key of a schedule, salts at 31 and 32, and a prefix (SchedulesEmitTheRegisterTops,
SaltIsTheCounterModulo32). -/
theorem witness_schedule_indices : (ks80 0 2)[1]? = some 0xC000000000000000 ∧ salt 31 = 31 ∧
    salt 32 = 0 ∧ (ks80 0 2).take 1 = ks80 0 1 := by decide +kernel

/-- An update that agrees with the schedule's at the counters below 2 and differs at 2: the keys below
index 2 stay and the key of index 2 does not (SaltIsTheCounterModulo32). -/
theorem witness_altered_update : ∃ u : Key80 → Nat → Key80, (∀ k j, j < 2 → u k j = update80 k j) ∧
    (scheduleFrom emit80 u 0 1 3)[1]? = (ks80 0 3)[1]? ∧
    (scheduleFrom emit80 u 0 1 3)[2]? ≠ (ks80 0 3)[2]? :=
  ⟨fun k j => if j < 2 then update80 k j else k, fun _ _ h => if_pos h, by decide +kernel,
    by decide +kernel⟩

/-- Lanes 0 and 15 at their edge bits, and the last byte of a number (OperandsAreBigEndian). -/
theorem witness_lanes : lane 0x80000000000000000000000000000001 0 = 0x80 ∧
    lane 0x80000000000000000000000000000001 15 = 1 ∧ (natToBytes 2 0x1234)[1]? = some 0x34 := by
  decide +kernel

/-- The three clauses of InitChecksThenInstalls at their edges; `rnd = 33` is legal or not as MAX_ROUNDS
is, so no fixed count above MAX_ROUNDS but one computed from it. -/
theorem witness_Init : ((9 : BitVec 8) ≠ 10 ∧ (9 : BitVec 8) ≠ 16) ∧
    (∀ r : BitVec 8, r = 1 ∨ r = 32 → 1 ≤ r.toNat ∧ r.toNat ≤ Config.maxRounds) ∧
    (Config.maxRounds < 255 → Config.maxRounds < (BitVec.ofNat 8 (Config.maxRounds + 1)).toNat) := by
  refine ⟨by decide, fun r h => ?_, fun h => ?_⟩
  · rcases h with h | h <;> (subst h; exact rounds_legal _ (by decide) (by decide))
  · rw [BitVec.toNat_ofNat]; omega

/-- The clauses of EncryptChecksThenAnswers, DecryptChecksThenAnswers and DecryptCommandUndoes…: no
instance; an instance; one round. -/
theorem witness_Cipher : State.reset.keyValid = false ∧ keyed.keyValid = true ∧
    1 ≤ keyed.rounds.toNat ∧ (finishInit 0 1 State.reset).rounds = 1 ∧
    CoreInv (at_ .idle 0 []) := ⟨rfl, rfl, by decide, rfl, at_inv _ _ _ (by decide)⟩

/-- A successful INIT and a state with its instance (LaterCommandsUseTheNewInstance). -/
theorem witness_LaterCommands : ∃ t, exec (.init 16 1 0) keyed = .next t ∧ t.rspStatus = 0 ∧
    (consume t).keyValid = t.keyValid ∧ (consume t).rounds = t.rounds ∧ (consume t).rk = t.rk ∧
    1 ≤ (1 : BitVec 8).toNat ∧ (1 : BitVec 8).toNat ≤ Config.maxRounds :=
  ⟨_, rfl, rfl, rfl, rfl, rfl, rounds_legal 1 (by decide) (by decide)⟩

/-- One latched word for each clause of ChecksRunInOrder, on a core with an instance or without. -/
theorem witness_ChecksRunInOrder : cmdOp 0xABC12345 ∉ [1, 2, 3, 4] ∧
    (cmdOp 0x00020091 = 1 ∧ cmdLen 0x00020091 ∉ [10, 16]) ∧
    (cmdOp 0x000000A1 = 1 ∧ cmdLen 0x000000A1 ∈ [10, 16] ∧ (cmdRnd 0x000000A1).toNat = 0) ∧
    (cmdOp 0x00000072 ∈ [2, 3] ∧ State.reset.keyValid = false) ∧
    (cmdOp 0x00000072 ∈ [2, 3] ∧ keyed.keyValid = true ∧ cmdLen 0x00000072 ≠ 8) := by decide

/-- Two buses that agree on the operand and differ beyond it, and commands that go on
(UnusedFieldsAndLanesAreIgnored). -/
theorem witness_Unused :
    (0x0123456789ABCDEF0123FFFFFFFFFFFF : DataIn).extractLsb' 48 80 =
      (0x0123456789ABCDEF0123000000000000 : DataIn).extractLsb' 48 80 ∧
    (0x0123456789ABCDEFFFFFFFFFFFFFFFFF : DataIn).extractLsb' 64 64 = keyed.din.extractLsb' 64 64 ∧
    (answer (exec (.init 10 2 0) keyed)).isSome ∧ (answer (exec (.encrypt 8 0 0) keyed)).isSome ∧
    (answer (exec (.decrypt 8 0 0) keyed)).isSome ∧ (answer (exec (.blockSize 0 0 0) keyed)).isSome := by
  decide +kernel

/-- Two rounds of both loops (DecryptRetracesEncrypt, CipherLoopsReadKeysInOrder), a list of one key
(DecryptUndoesEncrypt). -/
theorem witness_Retrace : ∃ (rk : Nat → RoundKey) (st dt : Nat → Block), st 0 = 5 ∧
    (∀ i, i + 1 < 2 → st (i + 1) = encRound (st i) (rk i)) ∧
    dt 0 = encryptBlock 5 ((List.range 2).map rk) ∧
    (∀ i, i + 1 < 2 → dt (i + 1) = decRound (dt i) (rk (2 - 1 - i))) ∧ [rk 0] ≠ [] :=
  ⟨fun _ => 7, fun i => if i = 0 then 5 else encRound 5 7,
    fun i => if i = 0 then encryptBlock 5 [7, 7] else decRound (encryptBlock 5 [7, 7]) 7, rfl,
    fun i h => by obtain rfl : i = 0 := by omega
                  rfl,
    rfl,
    fun i h => by obtain rfl : i = 0 := by omega
                  rfl,
    by simp⟩

/-- StepRunsTheDecodedCommand, both clauses. -/
theorem witness_StepRuns : (at_ .decode 0x00000082 []).resetApplied = true ∧
    phase (at_ .decode 0x00000082 []) = .busy ∧ (nextEdge (at_ .decode 0x00000082 [])).rst = false ∧
    (nextEdge (at_ .decode 0x00000082 [])).pace = .finish ∧
    decodeWord (at_ .decode 0x00000082 []).cmd = .ok (.encrypt 8 0 0) ∧
    decodeTableWord 32 0x00000082 = some (.encrypt 8 0 0) := by decide

/-- Ready and not ready, a held response, and two states of one phase (CommandsAreAccepted…,
ResponsesAreHeld…, PortsFollowThePhase). -/
theorem witness_Interface : cmdReady State.reset = true ∧ State.reset.resetApplied = true ∧
    cmdReady inKs = false ∧ rspValid keyed = true ∧ keyed.resetApplied = true ∧
    phase inKs = phase inEnc := by decide

/-- ResetWinsOverEverything (a reset at the next edge of a core that holds a response), and
CoreIsReadyAfterReset and NothingRunsBeforeTheFirstReset (edges with and without `rst`). -/
theorem witness_Reset : (nextEdge (at_ .resp 0 [{ rst := true, rspReady := true }])).rst = true ∧
    ({ cmdValid := true } : Edge).rst = false ∧ ({ cmdValid := true } : Edge).cmdValid = true ∧
    (powerUp State.reset).resetApplied = false := by decide

/-- A script of one held edge and a finishing one (EveryLatencyCompletesTheCommand). -/
theorem witness_EveryLatency :
    (at_ .decode 4 [{ pace := .hold }, {}]).script = [{ pace := .hold }] ++ ({} : Edge) :: [] ∧
    phase (at_ .decode 4 [{ pace := .hold }, {}]) = .busy ∧
    (∀ e ∈ [({ pace := .hold } : Edge)], e.rst = false ∧ e.pace = .hold) ∧
    ({} : Edge).rst = false ∧ ({} : Edge).pace = .finish := by decide

/-- A script that presents, holds, finishes, waits and takes (EachCommandGivesExactlyOneResponse). -/
theorem witness_EachCommand :
    (at_ .idle 0 [{ cmdValid := true, cmdWord := 4 }, { pace := .hold }, {}, {},
      { rspReady := true }]).script =
      { cmdValid := true, cmdWord := 4 } :: [{ pace := .hold }] ++ ({} : Edge) :: [({} : Edge)] ++
        { rspReady := true } :: [] ∧
    phase (at_ .idle 0 []) = .idle ∧ (at_ .idle 0 []).resetApplied = true ∧
    ({ rspReady := true } : Edge).rst = false := by decide

/-- A step of a core that meets the invariant; BLOCK_SIZE is no valid INIT (EveryStepKeeps…,
OnlyInitAndReset…, ResponseIsWrittenOnce…, NoStepStops…). -/
theorem witness_Steps : CoreInv (at_ .decode 4 []) ∧
    step (at_ .decode 4 []) = .next (respondBlockSize (advance (at_ .decode 4 []))) ∧
    (nextEdge (at_ .decode 4 [])).rst = false ∧ cmdOp (at_ .decode 4 []).cmd ≠ 1 :=
  ⟨at_inv _ _ _ (by decide), rfl, rfl, by decide⟩

/-- InternalRegistersAreUnobservable, RepeatedCommandsAnswerTheSame and
EveryCommandAnswersWithALegalStatus: runs of one latched command. -/
theorem witness_Runs : CoreInv (at_ .decode 4 []) ∧ phase (at_ .decode 4 []) = .busy ∧
    runLatched (at_ .decode 4 []) = .next (respondBlockSize (at_ .decode 4 [])) ∧
    runLatched { at_ .decode 4 [] with stateReg := 1, kreg := 2, rc := 3, fsm := .ks } =
      .next (respondBlockSize { at_ .decode 4 [] with stateReg := 1, kreg := 2, rc := 3, fsm := .ks }) ∧
    runLatched { respondBlockSize (at_ .decode 4 []) with tick := 9 } =
      .next (respondBlockSize { respondBlockSize (at_ .decode 4 []) with tick := 9 }) :=
  ⟨at_inv _ _ _ (by decide), rfl, rfl, rfl, rfl⟩

/-- Two cores with one instance and one block (CipherAnswersDependOnBlockAndInstance). -/
theorem witness_CipherAnswers : keyed.keyValid = inKs.keyValid ∧
    instanceKeys keyed = instanceKeys inKs ∧
    keyed.din.extractLsb' 64 64 = inKs.din.extractLsb' 64 64 ∧
    (answer (exec (.encrypt 8 0 0) keyed)).isSome ∧ (answer (exec (.encrypt 8 0 0) inKs)).isSome ∧
    (answer (exec (.decrypt 8 0 0) keyed)).isSome ∧ (answer (exec (.decrypt 8 0 0) inKs)).isSome :=
  ⟨rfl, by rw [keyed_keys keyed rfl rfl, keyed_keys inKs rfl rfl], rfl, rfl, rfl, rfl, rfl⟩

/-- A busy core in each sub-state (SequencerStepRefinesTheCommand), and in the first
(SequencerTakesTheReferenceLatency). -/
theorem witness_Sequencer : (CoreInv inKs ∧ phase inKs = .busy) ∧ (CoreInv inEnc ∧ phase inEnc = .busy) ∧
    (CoreInv inDec ∧ phase inDec = .busy) ∧
    CoreInv (at_ .decode 0x00000082 []) ∧ (at_ .decode 0x00000082 []).fsm = .decode :=
  ⟨⟨witness_inv_ks, rfl⟩, ⟨witness_inv_enc, rfl⟩, ⟨witness_inv_dec, rfl⟩, at_inv _ _ _ (by decide), rfl⟩

/-- A held edge, then a sequencer step, then a waiting response (PaceDoesNotChangeTheAnswer). -/
theorem witness_Pace : CoreInv (at_ .decode 4 [{ pace := .hold }, { pace := .seq }, {}]) ∧
    phase (at_ .decode 4 [{ pace := .hold }, { pace := .seq }, {}]) = .busy ∧
    (∀ e ∈ [({ pace := .hold } : Edge), { pace := .seq }, {}], e.rst = false ∧ e.rspReady = false) ∧
    ∃ t, runSteps 3 (at_ .decode 4 [{ pace := .hold }, { pace := .seq }, {}]) = .next t ∧
      phase t = .resp :=
  ⟨at_inv _ _ _ (by decide), rfl, by decide, _, rfl, rfl⟩

/-- The largest operands and round count (AssemblerPlacesTheOperands); a short and a too long key and
block (HostAndCoreRejectWrongLengths). -/
theorem witness_Host : (assemble (.init80 (2 ^ 80 - 1) (some 255))).isSome ∧
    (assemble (.init128 (2 ^ 128 - 1) none)).isSome ∧ (assemble (.encrypt (2 ^ 64 - 1) none)).isSome ∧
    ([] : List Byte).length ≠ 10 ∧ ([] : List Byte).length ≠ 8 ∧
    255 < (List.replicate 256 (0 : Byte)).length ∧ keyed.keyValid = true := by decide +kernel

/-- The first clause of AssemblerPlacesTheOperands at the lengths 0 and 16, and INIT128 with a round
count. -/
theorem witness_Assembler : (assemble (.init 0 0 (some 0))).isSome ∧
    (assemble (.decrypt (2 ^ 128 - 1) (some 16))).isSome ∧
    (assemble (.init128 (2 ^ 128 - 1) (some 255))).isSome := by decide +kernel

end Sys2Proof.Tests
end

section
/-! PROOFS. The big-endian conversions of 00_scope.md R10 and the operands of 30_encoding.md R80 to
R83: one equation per function of Machine/Operands.lean, then the obligation. -/

namespace Sys2Proof.Proofs.Operands

open Sys2Proof Sys2Proof.Machine

/-! ### Bytes to an integer and back -/

/-- The weight of a byte before `n` others: the model counts in 256, R10 in bits. -/
theorem pow_256_eq (n : Nat) : 256 ^ n = 2 ^ (8 * n) := (Nat.pow_mul 2 8 n).symm

@[simp] theorem bytesToNat_nil : bytesToNat [] = 0 := rfl

@[simp] theorem bytesToNat_concat (bs : List Byte) (b : Byte) :
    bytesToNat (bs ++ [b]) = bytesToNat bs * 256 + b.toNat := by
  simp [bytesToNat]

theorem bytesToNat_cons (b : Byte) (bs : List Byte) :
    bytesToNat (b :: bs) = b.toNat * 256 ^ bs.length + bytesToNat bs := by
  induction bs using List.reverseRecOn with
  | nil => simp [bytesToNat]
  | append_singleton bs c ih =>
    rw [← List.cons_append, bytesToNat_concat, ih, bytesToNat_concat, List.length_append,
      List.length_singleton, Nat.pow_succ]
    ring

/-- R10: byte `j` of `n` has the weight `2^(8(n-1-j))`. -/
theorem bytesToNat_eq_sum (bs : List Byte) : bytesToNat bs =
    ((List.range bs.length).map fun j =>
      (bs.getD j 0).toNat * 2 ^ (8 * (bs.length - 1 - j))).sum := by
  induction bs with
  | nil => rfl
  | cons b bs ih =>
    have weight (j : Nat) : bs.length - 1 - j = bs.length - (j + 1) := by omega
    rw [bytesToNat_cons, ih, pow_256_eq]
    simp [List.range_succ_eq_map, Function.comp_def, weight]

/-- R10: byte `j` of the `n` bytes of `v` is `v` shifted right by the bits below that byte. -/
theorem natToBytes_eq_map (n v : Nat) : natToBytes n v =
    (List.range n).map fun j => BitVec.ofNat 8 (v >>> (8 * (n - 1 - j))) := by
  induction n with
  | zero => rfl
  | succ n ih =>
    have weight (j : Nat) : n - 1 - j = n - (j + 1) := by omega
    simp [natToBytes, ih, List.range_succ_eq_map, weight, Nat.shiftRight_eq_div_pow, pow_256_eq]

@[simp] theorem natToBytes_length (n v : Nat) : (natToBytes n v).length = n := by
  simp [natToBytes_eq_map]

theorem natToBytes_getElem? {n j : Nat} (v : Nat) (hj : j < n) :
    (natToBytes n v)[j]? = some (BitVec.ofNat 8 (v >>> (8 * (n - 1 - j)))) := by
  simp [natToBytes_eq_map, hj]

/-- The conversions invert each other on what `n` bytes can hold. -/
theorem bytesToNat_natToBytes (n v : Nat) : bytesToNat (natToBytes n v) = v % 256 ^ n := by
  induction n with
  | zero => simp [natToBytes, Nat.mod_one]
  | succ n ih =>
    rw [natToBytes, bytesToNat_cons, ih, natToBytes_length, BitVec.toNat_ofNat,
      Nat.mod_pow_succ (b := 256)]
    ring

/-! ### The lanes of the data-in bus -/

theorem lane_getLsbD (d : DataIn) (j : Nat) {b : Nat} (hb : b < 8) :
    (lane d j).getLsbD b = d.getLsbD (120 - 8 * j + b) := by
  simp [lane, hb]

theorem lane_toNat (d : DataIn) (j : Nat) :
    (lane d j).toNat = (d.toNat >>> (120 - 8 * j)) % 256 := BitVec.extractLsb'_toNat ..

theorem lanes_succ (d : DataIn) (n : Nat) : lanes d (n + 1) = lanes d n ++ [lane d n] := by
  simp [lanes, List.range_succ]

/-- The first `n` lanes are the top `8n` bits of the bus: each further lane appends the next byte. -/
theorem bytesToNat_lanes (d : DataIn) {n : Nat} (hn : n ≤ 16) :
    bytesToNat (lanes d n) = d.toNat >>> (128 - 8 * n) := by
  induction n with
  | zero => exact (Nat.shiftRight_eq_zero _ _ d.isLt).symm
  | succ n ih =>
    have above : 128 - 8 * n = (120 - 8 * n) + 8 := by omega
    have here : 128 - 8 * (n + 1) = 120 - 8 * n := by omega
    rw [lanes_succ, bytesToNat_concat, ih (by omega), lane_toNat, above, here, Nat.shiftRight_add,
      Nat.shiftRight_eq_div_pow _ 8]
    exact Nat.div_add_mod' _ 256

/-- A field at the top of the bus is its bits shifted down: nothing stands above it. -/
theorem topField_toNat {k w : Nat} (d : DataIn) (h : k + w = 128) :
    (d.extractLsb' k w).toNat = d.toNat >>> k := by
  have bound : d.toNat >>> k < 2 ^ w := by
    rw [Nat.shiftRight_eq_div_pow]
    exact Nat.div_lt_of_lt_mul (by rw [← Nat.pow_add, h]; exact d.isLt)
  rw [BitVec.extractLsb'_toNat, Nat.mod_eq_of_lt bound]

theorem keyOperand80_toNat (d : DataIn) : (keyOperand80 d).toNat = bytesToNat (lanes d 10) :=
  (topField_toNat d rfl).trans (bytesToNat_lanes d (n := 10) (by decide)).symm

theorem keyOperand128_toNat (d : DataIn) : (keyOperand128 d).toNat = bytesToNat (lanes d 16) :=
  (bytesToNat_lanes d (Nat.le_refl 16)).symm

theorem blockOperand_toNat (d : DataIn) : (blockOperand d).toNat = bytesToNat (lanes d 8) :=
  (topField_toNat d rfl).trans (bytesToNat_lanes d (n := 8) (by decide)).symm

/-! ### The bytes of the result -/

theorem resultByte_eq_ofNat (r : BitVec 64) (j : Nat) :
    resultByte r j = BitVec.ofNat 8 (r.toNat >>> (8 * (8 - 1 - j))) := by
  have weight : 8 * (8 - 1 - j) = 56 - 8 * j := by omega
  rw [weight]
  rfl

theorem resultBytes_eq_natToBytes (r : BitVec 64) :
    (List.range 8).map (resultByte r) = natToBytes 8 r.toNat := by
  rw [natToBytes_eq_map]
  exact List.map_congr_left fun j _ => resultByte_eq_ofNat r j

theorem bytesToNat_resultBytes (r : BitVec 64) :
    bytesToNat ((List.range 8).map (resultByte r)) = r.toNat := by
  rw [resultBytes_eq_natToBytes, bytesToNat_natToBytes]
  exact Nat.mod_eq_of_lt r.isLt

/-- Settles O18: the conversions by their recursion, the operands as the top lanes of the bus. -/
theorem operandsAreBigEndian : Obligations.OperandsAreBigEndian :=
  ⟨fun d j _ _ hb => lane_getLsbD d j hb,
    bytesToNat_eq_sum,
    fun _ v _ hj => natToBytes_getElem? v hj,
    fun d => ⟨⟨rfl, keyOperand80_toNat d⟩, ⟨rfl, keyOperand128_toNat d⟩, ⟨rfl, blockOperand_toNat d⟩⟩,
    fun r => ⟨resultBytes_eq_natToBytes r, bytesToNat_resultBytes r⟩⟩

end Sys2Proof.Proofs.Operands
end

section
/-! PROOFS. PHASE, the handshake outputs and what one edge does in each phase (10_state.md R28, R34,
R38, 30_encoding.md R71 to R73, 70_reset_and_hazards.md R230), and the statements that rest on them. -/

namespace Sys2Proof.Proofs.CoreState

open Sys2Proof Sys2Proof.Machine Sys2Proof.Laws

/-! ### PHASE as a view of FSM, and the outputs as views of PHASE -/

theorem phase_eq_idle_iff (s : State) : phase s = .idle ↔ s.fsm = .idle := by
  unfold phase
  cases s.fsm <;> simp [phaseOf]

theorem phase_eq_resp_iff (s : State) : phase s = .resp ↔ s.fsm = .resp := by
  unfold phase
  cases s.fsm <;> simp [phaseOf]

theorem phase_eq_busy_iff (s : State) :
    phase s = .busy ↔ s.fsm = .decode ∨ s.fsm = .ks ∨ s.fsm = .enc ∨ s.fsm = .dec := by
  unfold phase
  cases s.fsm <;> simp [phaseOf]

theorem cmdReady_iff (s : State) : cmdReady s = true ↔ phase s = .idle := decide_eq_true_iff

theorem rspValid_iff (s : State) : rspValid s = true ↔ phase s = .resp := decide_eq_true_iff

/-! ### One edge in each phase -/

theorem clockEdge_reset {e : Edge} (h : e.rst = true) (s : State) :
    clockEdge e s = .next (resetEdge s) := if_pos h

theorem clockEdge_idle {e : Edge} {s : State} (he : e.rst = false) (hr : s.resetApplied = true)
    (hp : phase s = .idle) :
    clockEdge e s = .next (if e.cmdValid then accept e.cmdWord e.din s else s) := by
  simp [clockEdge, he, hr, hp]

theorem clockEdge_resp {e : Edge} {s : State} (he : e.rst = false) (hr : s.resetApplied = true)
    (hp : phase s = .resp) :
    clockEdge e s = .next (if e.rspReady then consume s else s) := by
  simp [clockEdge, he, hr, hp]

/-! ### The statements -/

/-- Settles O34: the outputs read the response register in RESP, and only `rsp_ready` moves it on. -/
theorem responsesAreHeldUntilTaken : Obligations.ResponsesAreHeldUntilTaken := by
  intro s e hr he hv
  have hp : phase s = .resp := (rspValid_iff s).1 hv
  have edge := clockEdge_resp he hr hp
  refine ⟨if_pos hp, if_pos hp, ?_, fun h => ?_, fun h => ?_⟩
  · simp [cmdReady, hp]
  · rw [edge, h]
    rfl
  · rw [edge, h]
    exact ⟨consume s, rfl, rfl, rfl, rfl⟩

/-- Settles O35: the phase of each FSM value, and the outputs decided by the phase. -/
theorem portsFollowThePhase : Obligations.PortsFollowThePhase := by
  refine ⟨fun s => ⟨phase_eq_idle_iff s, phase_eq_resp_iff s, phase_eq_busy_iff s, cmdReady_iff s,
    rspValid_iff s⟩, fun s t h => ?_⟩
  unfold cmdReady rspValid
  rw [h]
  exact ⟨rfl, rfl⟩

/-- Settles O37: a reset edge leaves IDLE, where the next edge accepts what is presented. -/
theorem coreIsReadyAfterReset : Obligations.CoreIsReadyAfterReset := by
  intro s e f he hf
  have edge : clockEdge f (resetEdge s) = _ := clockEdge_idle hf rfl rfl
  refine ⟨resetEdge s, clockEdge_reset he s, rfl, fun h => ?_, fun h => ?_⟩
  · rw [edge, h]
    exact ⟨accept f.cmdWord f.din (resetEdge s), rfl, rfl, rfl, rfl⟩
  · rw [edge, h]
    rfl

/-- Settles O39: each value as State.reset states it. -/
theorem resetStateIsIdleWithoutKey : Obligations.ResetStateIsIdleWithoutKey :=
  ⟨rfl, rfl, rfl, rfl, rfl, List.length_replicate⟩

/-- Settles O42: without a key and in IDLE, only the store's size is left to see. -/
theorem invariantHoldsAtReset : Obligations.InvariantHoldsAtReset where
  resetApplied := rfl
  rkSize := List.length_replicate
  roundsLegal h := nomatch h
  keysScheduled h := nomatch h
  statusLegal h := nomatch h
  ks h := nomatch h
  enc h := nomatch h
  dec h := nomatch h

end Sys2Proof.Proofs.CoreState
end

section
/-! PROOFS. What the latched command does as one transformation: its result for each valid command, what
every completion has in common, and which registers it does not read (10_state.md R35). -/

namespace Sys2Proof.Proofs.CoreState

open Sys2Proof Sys2Proof.Machine Sys2Proof.Laws

/-! ### The result of each valid command -/

/-- The latched command is an INIT whose checks pass (41_key_schedule.md R136). -/
def ValidInit (s : State) : Prop :=
  cmdOp s.cmd = 1 ∧ initCheck (cmdLen s.cmd) (cmdRnd s.cmd) = none

theorem initCheck_eq_none_iff_bounds (len rnd : BitVec 8) : initCheck len rnd = none ↔
    (len = 10 ∨ len = 16) ∧ 1 ≤ rnd.toNat ∧ rnd.toNat ≤ Config.maxRounds := by
  rw [initCheck_eq_none_iff, roundsLegal_iff]

theorem validInit_iff (s : State) : ValidInit s ↔
    cmdOp s.cmd = 1 ∧ (cmdLen s.cmd = 10 ∨ cmdLen s.cmd = 16) ∧
      1 ≤ (cmdRnd s.cmd).toNat ∧ (cmdRnd s.cmd).toNat ≤ Config.maxRounds := by
  rw [ValidInit, initCheck_eq_none_iff_bounds]

theorem ValidInit.rounds_legal {s : State} (h : ValidInit s) :
    1 ≤ (cmdRnd s.cmd).toNat ∧ (cmdRnd s.cmd).toNat ≤ Config.maxRounds := by
  obtain ⟨-, -, legal⟩ := (validInit_iff s).1 h
  exact legal

theorem keyValid_of_cipherCheck {v : Bool} {len : BitVec 8} (h : cipherCheck v len = none) :
    v = true := by
  obtain ⟨valid, -⟩ := (cipherCheck_eq_none_iff v len).1 h
  exact valid

theorem decodeWord_init {w : CmdWord} (h : cmdOp w = 1) :
    decodeWord w = .ok (.init (cmdLen w) (cmdRnd w) (cmdRsv w)) := if_pos h

theorem decodeWord_encrypt {w : CmdWord} (h : cmdOp w = 2) :
    decodeWord w = .ok (.encrypt (cmdLen w) (cmdRnd w) (cmdRsv w)) := by simp [decodeWord, h]

theorem decodeWord_decrypt {w : CmdWord} (h : cmdOp w = 3) :
    decodeWord w = .ok (.decrypt (cmdLen w) (cmdRnd w) (cmdRsv w)) := by simp [decodeWord, h]

theorem runLatched_init {s : State} (h : ValidInit s) : runLatched s =
    .next (finishInit (initKsize (cmdLen s.cmd)) (cmdRnd s.cmd)
      (rkWriteAll (initKeys (cmdLen s.cmd) s.din (cmdRnd s.cmd).toNat) s)) := by
  obtain ⟨op, checked⟩ := h
  rw [runLatched_ok s _ (decodeWord_init op)]
  simp [exec, execInit, checked]

theorem runLatched_encrypt {s : State} (op : cmdOp s.cmd = 2)
    (checked : cipherCheck s.keyValid (cmdLen s.cmd) = none) : runLatched s =
      .next (finishCipher (encryptBlock (blockOperand s.din) (instanceKeys s)) s) := by
  rw [runLatched_ok s _ (decodeWord_encrypt op)]
  simp [exec, execEncrypt, cipherCommand, checked]

theorem runLatched_decrypt {s : State} (op : cmdOp s.cmd = 3)
    (checked : cipherCheck s.keyValid (cmdLen s.cmd) = none) : runLatched s =
      .next (finishCipher (decryptBlock (blockOperand s.din) (instanceKeys s)) s) := by
  rw [runLatched_ok s _ (decodeWord_decrypt op)]
  simp [exec, execDecrypt, cipherCommand, checked]

/-! ### What every completion has in common -/

/-- KEY_VALID, KSIZE, ROUNDS and every RK entry are the same in both states. -/
structure KeepsInstance (s t : State) : Prop where
  keyValid : t.keyValid = s.keyValid
  ksize : t.ksize = s.ksize
  rounds : t.rounds = s.rounds
  rk : t.rk = s.rk

/-- What any completed command leaves: a response with one of the six codes, the model's own fields,
and, but for a valid INIT, the keys. -/
structure Completes (s t : State) : Prop where
  fsm : t.fsm = .resp
  statusLegal : t.rspStatus.toNat ≤ 5
  resetApplied : t.resetApplied = s.resetApplied
  script : t.script = s.script
  tick : t.tick = s.tick
  kept : ¬ ValidInit s → KeepsInstance s t

theorem completes_raise (e : CmdError) (s : State) : Completes s (raise e s) :=
  ⟨rfl, (errorStatus_range e).2, rfl, rfl, rfl, fun _ => ⟨rfl, rfl, rfl, rfl⟩⟩

theorem completes_finishCipher (b : Block) (s : State) : Completes s (finishCipher b s) :=
  ⟨rfl, Nat.zero_le 5, rfl, rfl, rfl, fun _ => ⟨rfl, rfl, rfl, rfl⟩⟩

/-- The latched command always completes (60_exceptions.md R200). -/
theorem runLatched_completes (s : State) : ∃ t, runLatched s = .next t ∧ Completes s t := by
  obtain ⟨e, h⟩ | ⟨op, checked, h⟩ | ⟨-, -, h⟩ | ⟨-, -, h⟩ | ⟨-, h⟩ := runLatched_cases s
  · exact ⟨_, h, completes_raise e s⟩
  · exact ⟨_, h, rfl, Nat.zero_le 5, rfl, rfl, rfl, fun invalid => absurd ⟨op, checked⟩ invalid⟩
  · exact ⟨_, h, completes_finishCipher _ s⟩
  · exact ⟨_, h, completes_finishCipher _ s⟩
  · exact ⟨_, h, rfl, Nat.zero_le 5, rfl, rfl, rfl, fun _ => ⟨rfl, rfl, rfl, rfl⟩⟩

theorem completes_of_runLatched {s t : State} (h : runLatched s = .next t) : Completes s t := by
  obtain ⟨u, hu, completes⟩ := runLatched_completes s
  obtain rfl : u = t := Host.Outcome.next.inj (hu.symm.trans h)
  exact completes

theorem Completes.phase_eq {s t : State} (h : Completes s t) : phase t = .resp := by
  rw [phase, h.fsm]
  rfl

/-! ### Registers the latched command overwrites without reading them -/

/-- INIT reads neither the store nor KREG, RC or FSM: its end overwrites all four. -/
theorem finishInit_rkWriteAll_congr (z : BitVec 1) (r : BitVec 8) (keys : List RoundKey) (s : State)
    (rk : List RoundKey) (kreg : BitVec 128) (rc : BitVec 8) (f : Fsm)
    (h : keys.length = r.toNat) :
    finishInit z r (rkWriteAll keys { s with rk := rk, kreg := kreg, rc := rc, fsm := f }) =
      finishInit z r (rkWriteAll keys s) := by
  simp [finishInit, respond, rkWriteAll, ← h]

theorem runLatched_init_congr {s : State} (h : ValidInit s) (rk : List RoundKey)
    (kreg : BitVec 128) (rc : BitVec 8) (f : Fsm) :
    runLatched { s with rk := rk, kreg := kreg, rc := rc, fsm := f } = runLatched s := by
  rw [runLatched_init h, ← finishInit_rkWriteAll_congr _ _ _ s rk kreg rc f (initKeys_length ..)]
  exact runLatched_init h

/-- ENCRYPT and DECRYPT read neither STATE, RC nor FSM: their end overwrites all three. -/
theorem runLatched_cipher_congr {s : State} (op : cmdOp s.cmd = 2 ∨ cmdOp s.cmd = 3)
    (checked : cipherCheck s.keyValid (cmdLen s.cmd) = none) (block : Block) (rc : BitVec 8)
    (f : Fsm) :
    runLatched { s with stateReg := block, rc := rc, fsm := f } = runLatched s := by
  obtain op | op := op
  · rw [runLatched_encrypt op checked]
    exact runLatched_encrypt op checked
  · rw [runLatched_decrypt op checked]
    exact runLatched_decrypt op checked

end Sys2Proof.Proofs.CoreState
end

section
/-! PROOFS. Each step of the reference sequencer (41_key_schedule.md R139, 43_block_cipher.md R184, R185)
under the invariant: it ends the command as its meaning does, enters a sub-state, or makes one more
iteration there. -/

namespace Sys2Proof.Proofs.CoreState

open Sys2Proof Sys2Proof.Machine Sys2Proof.Laws

/-! ### The key schedule -/

/-- What a `KS` iteration writes to KREG: the register of its variant, updated with `i = RC`. -/
def nextKreg (s : State) : BitVec 128 :=
  if cmdLen s.cmd = 10 then kregWrite80 (update80 (s.kreg.extractLsb' 0 80) s.rc.toNat) s.kreg
  else update128 s.kreg s.rc.toNat

/-- The key a `KS` iteration emits. -/
def emittedKey (s : State) : RoundKey :=
  if cmdLen s.cmd = 10 then emit80 (s.kreg.extractLsb' 0 80) else emit128 s.kreg

theorem validInit_of_ksProgress {s : State} (h : KsProgress s) : ValidInit s := ⟨h.op, h.checked⟩

/-- The entry a `KS` iteration writes lies in the store. -/
theorem rc_le_rkSize {s : State} (inv : CoreInv s) (h : KsProgress s) :
    s.rc.toNat ≤ s.rk.length := by
  rw [inv.rkSize]
  exact h.counter.2.trans (validInit_of_ksProgress h).rounds_legal.2

/-- A `KS` iteration writes one entry of RK, and KREG. -/
theorem ksIteration_eq (s : State) : ksIteration s =
    { s with rk := s.rk.set (s.rc.toNat - 1) (emittedKey s), kreg := nextKreg s } := by
  unfold ksIteration emittedKey nextKreg
  split <;> rfl

@[simp] theorem kregWrite80_low (k : Key80) (kreg : BitVec 128) :
    (kregWrite80 k kreg).extractLsb' 0 80 = k := BitVec.extractLsb'_append_eq_right

@[simp] theorem initKeys_zero (len : BitVec 8) (d : DataIn) : initKeys len d 0 = [] :=
  List.eq_nil_of_length_eq_zero (initKeys_length len d 0)

theorem take_set_succ (l : List RoundKey) (n : Nat) (k : RoundKey) (h : n < l.length) :
    (l.set n k).take (n + 1) = l.take n ++ [k] := by
  rw [List.take_add_one, List.take_set_of_le (Nat.le_refl n)]
  simp [h]

/-- The key emitted in `KS` is the schedule's next key. -/
theorem emittedKey_eq {s : State} (h : KsProgress s) : emittedKey s =
    if cmdLen s.cmd = 10 then emit80 (registerFrom update80 (keyOperand80 s.din) 1 (s.rc.toNat - 1))
    else emit128 (registerFrom update128 (keyOperand128 s.din) 1 (s.rc.toNat - 1)) := by
  unfold emittedKey
  split
  case isTrue len => rw [h.register80 len]
  case isFalse len => rw [h.register128 len]

/-- After the iteration with counter RC the first RC entries of RK are the schedule's. -/
theorem ksIteration_rk_take {s : State} (h : KsProgress s) (size : s.rc.toNat ≤ s.rk.length) :
    (ksIteration s).rk.take s.rc.toNat = initKeys (cmdLen s.cmd) s.din s.rc.toNat := by
  obtain ⟨n, hn⟩ : ∃ n, s.rc.toNat = n + 1 := Nat.exists_eq_add_one.2 h.counter.1
  have emitted := h.emitted
  have key := emittedKey_eq h
  simp only [hn, Nat.add_sub_cancel] at emitted key
  rw [ksIteration_eq, hn, Nat.add_sub_cancel, take_set_succ _ _ _ (by omega), emitted, key,
    initKeys_succ]

/-- The counter of a sub-state that has not reached its bound does not wrap. -/
theorem toNat_add_one {c b : BitVec 8} (h : c.toNat < b.toNat) : (c + 1).toNat = c.toNat + 1 := by
  bv_omega

/-- 41_key_schedule.md R139: an iteration that is not the last keeps the progress of `KS`. -/
theorem ksProgress_iterate {s : State} (h : KsProgress s) (size : s.rc.toNat ≤ s.rk.length)
    (more : s.rc.toNat < (cmdRnd s.cmd).toNat) :
    KsProgress { ksIteration s with rc := s.rc + 1 } := by
  have emitted := ksIteration_rk_take h size
  have last : s.rc.toNat = s.rc.toNat - 1 + 1 := by have := h.counter.1; omega
  have index : 1 + (s.rc.toNat - 1) = s.rc.toNat := by omega
  rw [ksIteration_eq] at emitted ⊢
  constructor <;> simp only [toNat_add_one more, Nat.add_sub_cancel]
  case op => exact h.op
  case checked => exact h.checked
  case counter => omega
  case emitted => exact emitted
  case register80 =>
    intro len
    rw [nextKreg, if_pos len, kregWrite80_low, h.register80 len, last, registerFrom_succ, ← last,
      index]
  case register128 =>
    intro len
    rw [nextKreg, if_neg len, h.register128 len, last, registerFrom_succ, ← last, index]

theorem ksProgress_enter {s : State} (h : ValidInit s) : KsProgress (enterKs (cmdLen s.cmd) s) where
  op := h.1
  checked := h.2
  counter := ⟨Nat.le_refl 1, h.rounds_legal.1⟩
  emitted := (initKeys_zero ..).symm
  register80 (len : cmdLen s.cmd = 10) := by simp [len, registerFrom]
  register128 (len : cmdLen s.cmd ≠ 10) := if_neg len

/-- The last `KS` step writes what INIT's meaning writes (41_key_schedule.md R139). -/
theorem finishInit_ksIteration {s : State} (h : KsProgress s) (size : s.rc.toNat ≤ s.rk.length)
    (last : s.rc = cmdRnd s.cmd) (z : BitVec 1) :
    finishInit z (cmdRnd s.cmd) (ksIteration s) =
      finishInit z (cmdRnd s.cmd)
        (rkWriteAll (initKeys (cmdLen s.cmd) s.din (cmdRnd s.cmd).toNat) s) := by
  have emitted := ksIteration_rk_take h size
  rw [ksIteration_eq, last] at emitted
  rw [ksIteration_eq, last]
  simp only at emitted
  simp [finishInit, respond, rkWriteAll, emitted]

/-! ### The rounds of the cipher -/

/-- 43_block_cipher.md R185: a round under the loop's next key keeps the progress of `ENC` or `DEC`. -/
theorem cipherProgress_round {op : BitVec 4} {round : Block → RoundKey → Block}
    {keys : List RoundKey} {s : State} (h : CipherProgress op round keys s) {k : RoundKey}
    (key : keys[s.rc.toNat]? = some k) (more : s.rc.toNat + 1 < s.rounds.toNat) :
    CipherProgress op round keys { s with stateReg := round s.stateReg k, rc := s.rc + 1 } := by
  have next := toNat_add_one (c := s.rc) h.counter
  refine ⟨h.op, h.checked, ?_, ?_⟩ <;> simp only [next]
  · exact more
  · rw [List.take_add_one, key, Option.toList_some, List.foldl_append, ← h.block]
    rfl

/-- The key addition after the last round gives the cipher function's result. -/
theorem cipherProgress_last {op : BitVec 4} {round : Block → RoundKey → Block}
    {keys : List RoundKey} {s : State} (h : CipherProgress op round keys s) {k : RoundKey}
    (key : keys[s.rc.toNat]? = some k) (last : keys.length = s.rc.toNat + 1) :
    addRoundKey s.stateReg k = keyedLoop round (blockOperand s.din) keys := by
  have split : keys = keys.take s.rc.toNat ++ [k] := by
    have := List.take_add_one (l := keys) (i := s.rc.toNat)
    rwa [key, ← last, List.take_length] at this
  rw [h.block, split, keyedLoop_concat, ← split]

theorem instanceKeys_getElem? (s : State) {i : Nat} (h : i < s.rounds.toNat) :
    (instanceKeys s)[i]? = some (rkRead s i) := by
  simp [instanceKeys, h]

theorem instanceKeys_reverse_getElem? (s : State) {i : Nat} (h : i < s.rounds.toNat) :
    (instanceKeys s).reverse[i]? = some (rkRead s (s.rounds.toNat - 1 - i)) := by
  rw [List.getElem?_reverse (by rwa [instanceKeys_length]), instanceKeys_length]
  exact instanceKeys_getElem? s (by omega)

theorem seqCipher_more {round : Block → RoundKey → Block} {i j : Nat} {s : State}
    (more : s.rc.toNat + 1 < s.rounds.toNat) : seqCipher round i j s =
      { s with stateReg := round s.stateReg (rkRead s i), rc := s.rc + 1 } := if_pos more

theorem seqCipher_last {round : Block → RoundKey → Block} {i j : Nat} {s : State}
    (last : s.rounds.toNat = s.rc.toNat + 1) : seqCipher round i j s =
      finishCipher (addRoundKey s.stateReg (rkRead s j)) s := by
  have legal : s.rounds ≠ 0 := by intro h; simp [h] at last
  rw [seqCipher, if_neg (by omega), if_neg legal]

/-! ### Everything a step of a busy core can do -/

/-- The outcomes of a sequencer step. -/
inductive SeqStep (s : State) : State → Prop
  | ends {t : State} (h : runLatched s = .next t) : SeqStep s t
  | toKs (hf : s.fsm = .decode) (valid : ValidInit s) : SeqStep s (enterKs (cmdLen s.cmd) s)
  | toEnc (hf : s.fsm = .decode) (op : cmdOp s.cmd = 2)
      (checked : cipherCheck s.keyValid (cmdLen s.cmd) = none) : SeqStep s (enterCipher .enc s)
  | toDec (hf : s.fsm = .decode) (op : cmdOp s.cmd = 3)
      (checked : cipherCheck s.keyValid (cmdLen s.cmd) = none) : SeqStep s (enterCipher .dec s)
  | ksMore (hf : s.fsm = .ks) (more : s.rc.toNat < (cmdRnd s.cmd).toNat) :
      SeqStep s { ksIteration s with rc := s.rc + 1 }
  | encMore (hf : s.fsm = .enc) (more : s.rc.toNat + 1 < s.rounds.toNat) :
      SeqStep s { s with stateReg := encRound s.stateReg (rkRead s s.rc.toNat), rc := s.rc + 1 }
  | decMore (hf : s.fsm = .dec) (more : s.rc.toNat + 1 < s.rounds.toNat) :
      SeqStep s { s with
        stateReg := decRound s.stateReg (rkRead s (s.rounds.toNat - 1 - s.rc.toNat)), rc := s.rc + 1 }

/-- 43_block_cipher.md R184: the decode step answers at once or enters the command's sub-state. -/
theorem seqDecode_seqStep {s : State} (hf : s.fsm = .decode) : SeqStep s (seqDecode s) := by
  unfold seqDecode
  obtain ⟨op, h⟩ | ⟨op, h⟩ | ⟨op, h⟩ | ⟨op, h⟩ | ⟨op, h⟩ := decodeWord_cases s.cmd <;> rw [h]
  · cases checked : initCheck (cmdLen s.cmd) (cmdRnd s.cmd) with
    | some e => exact .ends (by simp [runLatched_ok s _ h, exec, execInit, checked])
    | none =>
      simp only [checked]
      exact .toKs hf ⟨op, checked⟩
  · cases checked : cipherCheck s.keyValid (cmdLen s.cmd) with
    | some e => exact .ends (by simp [runLatched_ok s _ h, exec, execEncrypt, cipherCommand, checked])
    | none =>
      simp only [checked]
      exact .toEnc hf op checked
  · cases checked : cipherCheck s.keyValid (cmdLen s.cmd) with
    | some e => exact .ends (by simp [runLatched_ok s _ h, exec, execDecrypt, cipherCommand, checked])
    | none =>
      simp only [checked]
      exact .toDec hf op checked
  · exact .ends (runLatched_ok s _ h)
  · exact .ends (runLatched_error s _ h)

/-- 41_key_schedule.md R139: INIT ends with the iteration whose counter is the round count. -/
theorem seqKs_seqStep {s : State} (inv : CoreInv s) (hf : s.fsm = .ks) : SeqStep s (seqKs s) := by
  have progress := inv.ks hf
  have valid := validInit_of_ksProgress progress
  have size := rc_le_rkSize inv progress
  unfold seqKs
  split
  case isTrue last =>
    rw [finishInit_ksIteration progress size last]
    exact .ends (runLatched_init valid)
  case isFalse more =>
    exact .ksMore hf (Nat.lt_of_le_of_ne progress.counter.2 fun h => more (BitVec.eq_of_toNat_eq h))

/-- 43_block_cipher.md R185: ENCRYPT ends when RC has reached ROUNDS-1. -/
theorem seqEnc_seqStep {s : State} (inv : CoreInv s) (hf : s.fsm = .enc) : SeqStep s (seqEnc s) := by
  have progress := inv.enc hf
  unfold seqEnc
  obtain more | last : s.rc.toNat + 1 < s.rounds.toNat ∨ s.rounds.toNat = s.rc.toNat + 1 := by
    have := progress.counter; omega
  · rw [seqCipher_more more]
    exact .encMore hf more
  · have key := instanceKeys_getElem? s progress.counter
    have result := cipherProgress_last progress key (by rw [instanceKeys_length, last])
    rw [seqCipher_last last, last, Nat.add_sub_cancel, result]
    exact .ends (runLatched_encrypt progress.op progress.checked)

/-- 43_block_cipher.md R185, R182: DECRYPT reads the keys from the other end. -/
theorem seqDec_seqStep {s : State} (inv : CoreInv s) (hf : s.fsm = .dec) : SeqStep s (seqDec s) := by
  have progress := inv.dec hf
  unfold seqDec
  obtain more | last : s.rc.toNat + 1 < s.rounds.toNat ∨ s.rounds.toNat = s.rc.toNat + 1 := by
    have := progress.counter; omega
  · rw [seqCipher_more more]
    exact .decMore hf more
  · have key := instanceKeys_reverse_getElem? s progress.counter
    rw [last, Nat.add_sub_cancel, Nat.sub_self] at key
    have result := cipherProgress_last progress key
      (by rw [List.length_reverse, instanceKeys_length, last])
    rw [seqCipher_last last, result]
    exact .ends (runLatched_decrypt progress.op progress.checked)

theorem sequencerStep_seqStep {s : State} (inv : CoreInv s) (busy : phase s = .busy) :
    SeqStep s (sequencerStep s) := by
  unfold sequencerStep
  obtain hf | hf | hf | hf := (phase_eq_busy_iff s).1 busy <;> rw [hf]
  · exact seqDecode_seqStep hf
  · exact seqKs_seqStep inv hf
  · exact seqEnc_seqStep inv hf
  · exact seqDec_seqStep inv hf

/-! ### Refinement -/

/-- A step that does not end the command leaves PHASE, and changes only registers that the command's
meaning overwrites. -/
theorem SeqStep.refines {s t : State} (h : SeqStep s t) (inv : CoreInv s) (busy : phase s = .busy) :
    (phase t = .busy ∧ runLatched t = runLatched s) ∨
    (phase t = .resp ∧ runLatched s = .next t) := by
  cases h with
  | ends h => exact .inr ⟨(completes_of_runLatched h).phase_eq, h⟩
  | toKs hf valid => exact .inl ⟨rfl, runLatched_init_congr valid s.rk _ 1 .ks⟩
  | toEnc hf op checked => exact .inl ⟨rfl, runLatched_cipher_congr (.inl op) checked _ 0 .enc⟩
  | toDec hf op checked => exact .inl ⟨rfl, runLatched_cipher_congr (.inr op) checked _ 0 .dec⟩
  | ksMore hf more =>
    rw [ksIteration_eq]
    exact .inl ⟨busy, runLatched_init_congr (validInit_of_ksProgress (inv.ks hf)) _ _ _ s.fsm⟩
  | encMore hf more =>
    have progress := inv.enc hf
    exact .inl ⟨busy, runLatched_cipher_congr (.inl progress.op) progress.checked _ _ s.fsm⟩
  | decMore hf more =>
    have progress := inv.dec hf
    exact .inl ⟨busy, runLatched_cipher_congr (.inr progress.op) progress.checked _ _ s.fsm⟩

/-- Settles O51: the case a step is in says whether the command goes on or has ended. -/
theorem sequencerStepRefinesTheCommand : Obligations.SequencerStepRefinesTheCommand :=
  fun _ inv busy => (sequencerStep_seqStep inv busy).refines inv busy

end Sys2Proof.Proofs.CoreState
end

section
/-! PROOFS. The invariant of Safety.lean along a step, and what a step leaves unchanged. -/

namespace Sys2Proof.Proofs.CoreState

open Sys2Proof Sys2Proof.Machine Sys2Proof.Laws

variable {s t : State}

/-! ### States that keep the keys -/

/-- The keys read from a store that holds them all do not depend on the step counter. -/
theorem KeepsInstance.instanceKeys_eq (h : KeepsInstance s t) (inv : CoreInv s)
    (valid : s.keyValid = true) : instanceKeys t = instanceKeys s := by
  have size : s.rounds.toNat ≤ s.rk.length := by
    rw [inv.rkSize]
    exact (inv.roundsLegal valid).2
  rw [instanceKeys_eq_take s size, instanceKeys_eq_take t (by rwa [h.rounds, h.rk]), h.rounds, h.rk]

theorem KeepsInstance.keysScheduled (h : KeepsInstance s t) (inv : CoreInv s)
    (valid : s.keyValid = true) (keys : KeysScheduled s) : KeysScheduled t := by
  unfold KeysScheduled
  rw [h.instanceKeys_eq inv valid, h.ksize, h.rounds]
  exact keys

/-- The part of the invariant that speaks of no sub-state, for a state with the same keys. -/
theorem coreInv_of_keepsInstance (inv : CoreInv s) (kept : KeepsInstance s t)
    (resetApplied : t.resetApplied = true) (hf : t.fsm ≠ .ks → s.fsm ≠ .ks)
    (statusLegal : t.fsm = .resp → t.rspStatus.toNat ≤ 5)
    (ks : t.fsm = .ks → KsProgress t)
    (enc : t.fsm = .enc → CipherProgress 2 encRound (instanceKeys t) t)
    (dec : t.fsm = .dec → CipherProgress 3 decRound (instanceKeys t).reverse t) : CoreInv t where
  resetApplied := resetApplied
  rkSize := by rw [kept.rk, inv.rkSize]
  roundsLegal valid := by
    rw [kept.rounds]
    exact inv.roundsLegal (kept.keyValid ▸ valid)
  keysScheduled valid notKs := by
    rw [kept.keyValid] at valid
    exact kept.keysScheduled inv valid (inv.keysScheduled valid (hf notKs))
  statusLegal := statusLegal
  ks := ks
  enc := enc
  dec := dec

/-- A state with the same keys in which the sequencer does not run. -/
theorem coreInv_atRest (inv : CoreInv s) (kept : KeepsInstance s t)
    (resetApplied : t.resetApplied = true) (notKs : s.fsm ≠ .ks)
    (rest : t.fsm = .idle ∨ t.fsm = .decode ∨ (t.fsm = .resp ∧ t.rspStatus.toNat ≤ 5)) :
    CoreInv t := by
  refine coreInv_of_keepsInstance inv kept resetApplied (fun _ => notKs) ?_ ?_ ?_ ?_ <;>
    intro hf <;> simp [hf] at rest
  exact rest

theorem notKs_of_phase {p : Phase} (h : phase s = p) (hp : p ≠ .busy) : s.fsm ≠ .ks := by
  intro hf
  rw [phase, hf] at h
  exact hp h.symm

/-! ### The operations of a step -/

theorem coreInv_resetEdge (s : State) : CoreInv (resetEdge s) where
  resetApplied := rfl
  rkSize := unspecifiedKeys_length ..
  roundsLegal h := nomatch h
  keysScheduled h := nomatch h
  statusLegal h := nomatch h
  ks h := nomatch h
  enc h := nomatch h
  dec h := nomatch h

theorem coreInv_advance (inv : CoreInv s) : CoreInv (advance s) := by
  have kept : KeepsInstance s (advance s) := ⟨rfl, rfl, rfl, rfl⟩
  refine coreInv_of_keepsInstance inv kept inv.resetApplied id inv.statusLegal ?_ ?_ ?_ <;> intro hf
  · obtain ⟨op, checked, counter, emitted, register80, register128⟩ := inv.ks hf
    exact ⟨op, checked, counter, emitted, register80, register128⟩
  · obtain ⟨op, checked, counter, block⟩ := inv.enc hf
    rw [kept.instanceKeys_eq inv (keyValid_of_cipherCheck checked)]
    exact ⟨op, checked, counter, block⟩
  · obtain ⟨op, checked, counter, block⟩ := inv.dec hf
    rw [kept.instanceKeys_eq inv (keyValid_of_cipherCheck checked)]
    exact ⟨op, checked, counter, block⟩

/-- A schedule of the operand on DIN is one of a key of the size INIT writes (41_key_schedule.md R133). -/
theorem keysScheduled_of_initKeys {len : BitVec 8} {d : DataIn} (ksize : t.ksize = initKsize len)
    (keys : instanceKeys t = initKeys len d t.rounds.toNat) : KeysScheduled t := by
  by_cases h : len = 10
  · exact .inl ⟨by rw [ksize, initKsize, if_pos h], keyOperand80 d, by rw [keys, initKeys, if_pos h]⟩
  · exact .inr ⟨by rw [ksize, initKsize, if_neg h], keyOperand128 d, by rw [keys, initKeys, if_neg h]⟩

theorem coreInv_finishInit {len rnd : BitVec 8} (d : DataIn) (resetApplied : s.resetApplied = true)
    (legal : 1 ≤ rnd.toNat ∧ rnd.toNat ≤ Config.maxRounds) :
    CoreInv (finishInit (initKsize len) rnd (rkWriteAll (initKeys len d rnd.toNat) s)) := by
  have store := finishInit_rkWriteAll_rk (initKsize len) rnd _ s (initKeys_length len d rnd.toNat)
  have size : (finishInit (initKsize len) rnd (rkWriteAll (initKeys len d rnd.toNat) s)).rk.length =
      Config.maxRounds := by
    rw [store, List.length_append, initKeys_length, unspecifiedKeys_length]
    omega
  have keys : instanceKeys (finishInit (initKsize len) rnd
      (rkWriteAll (initKeys len d rnd.toNat) s)) = initKeys len d rnd.toNat := by
    rw [instanceKeys_eq_take _ (by rw [size]; exact legal.2), store]
    simp
  exact {
    resetApplied := resetApplied
    rkSize := size
    roundsLegal := fun _ => legal
    keysScheduled := fun _ _ => keysScheduled_of_initKeys rfl keys
    statusLegal := fun _ => Nat.zero_le 5
    ks := fun h => nomatch h
    enc := fun h => nomatch h
    dec := fun h => nomatch h }

/-- A completed command keeps the invariant: a valid INIT by the schedule it writes, any other by what
it leaves. -/
theorem coreInv_runLatched (inv : CoreInv s) (h : runLatched s = .next t) : CoreInv t := by
  have completes := completes_of_runLatched h
  by_cases valid : ValidInit s
  · have result := runLatched_init valid
    rw [h] at result
    cases result
    exact coreInv_finishInit s.din inv.resetApplied valid.rounds_legal
  · exact coreInv_atRest inv (completes.kept valid) (completes.resetApplied.trans inv.resetApplied)
      (fun hf => valid (validInit_of_ksProgress (inv.ks hf)))
      (.inr (.inr ⟨completes.fsm, completes.statusLegal⟩))

/-! ### The sequencer -/

theorem coreInv_ksMore (inv : CoreInv s) (hf : s.fsm = .ks)
    (more : s.rc.toNat < (cmdRnd s.cmd).toNat) : CoreInv { ksIteration s with rc := s.rc + 1 } := by
  have progress := inv.ks hf
  have next := ksProgress_iterate progress (rc_le_rkSize inv progress) more
  rw [ksIteration_eq] at next ⊢
  exact {
    resetApplied := inv.resetApplied
    rkSize := List.length_set.trans inv.rkSize
    roundsLegal := inv.roundsLegal
    keysScheduled := fun _ notKs => absurd hf notKs
    statusLegal := fun h => nomatch hf.symm.trans h
    ks := fun _ => next
    enc := fun h => nomatch hf.symm.trans h
    dec := fun h => nomatch hf.symm.trans h }

theorem SeqStep.keeps_inv (h : SeqStep s t) (inv : CoreInv s) : CoreInv t := by
  have kept (block : Block) (kreg : BitVec 128) (rc : BitVec 8) (f : Fsm) : KeepsInstance s
      { s with stateReg := block, kreg := kreg, rc := rc, fsm := f } := ⟨rfl, rfl, rfl, rfl⟩
  cases h with
  | ends h => exact coreInv_runLatched inv h
  | toKs hf valid =>
    refine coreInv_of_keepsInstance inv (kept _ _ _ _) inv.resetApplied ?_ ?_
      (fun _ => ksProgress_enter valid) ?_ ?_ <;> simp
  | toEnc hf op checked =>
    have counter := (inv.roundsLegal (keyValid_of_cipherCheck checked)).1
    refine coreInv_of_keepsInstance inv (kept _ _ _ _) inv.resetApplied ?_ ?_ ?_
      (fun _ => ⟨op, checked, counter, rfl⟩) ?_ <;> simp [hf]
  | toDec hf op checked =>
    have counter := (inv.roundsLegal (keyValid_of_cipherCheck checked)).1
    refine coreInv_of_keepsInstance inv (kept _ _ _ _) inv.resetApplied ?_ ?_ ?_ ?_
      (fun _ => ⟨op, checked, counter, rfl⟩) <;> simp [hf]
  | ksMore hf more => exact coreInv_ksMore inv hf more
  | encMore hf more =>
    have progress := inv.enc hf
    have key := instanceKeys_getElem? s progress.counter
    refine coreInv_of_keepsInstance inv (kept _ _ _ _) inv.resetApplied ?_ ?_ ?_
      (fun _ => cipherProgress_round progress key more) ?_ <;> simp [hf]
  | decMore hf more =>
    have progress := inv.dec hf
    have key := instanceKeys_reverse_getElem? s progress.counter
    refine coreInv_of_keepsInstance inv (kept _ _ _ _) inv.resetApplied ?_ ?_ ?_ ?_
      (fun _ => cipherProgress_round progress key more) <;> simp [hf]

/-! ### Steps -/

/-- The outcomes of a step of a core that was reset. A finishing edge counts as the last step of the
sequencer. -/
inductive StepTo (s : State) : State → Prop
  | resets (rst : (nextEdge s).rst = true) : StepTo s (resetEdge (advance s))
  | waits : StepTo s (advance s)
  | accepts (idle : phase s = .idle) :
      StepTo s (accept (nextEdge s).cmdWord (nextEdge s).din (advance s))
  | works {t : State} (busy : phase s = .busy) (h : SeqStep (advance s) t) : StepTo s t
  | consumes (resp : phase s = .resp) (ready : (nextEdge s).rspReady = true) :
      StepTo s (consume (advance s))

theorem stepTo_of_step (inv : CoreInv s) (h : step s = .next t) : StepTo s t := by
  obtain ⟨rst, hs⟩ | ⟨-, ⟨-, hs⟩ | ⟨-, -, -, hs⟩ | ⟨-, idle, -, hs⟩ | ⟨-, -, -, hs⟩ | ⟨-, busy, -, hs⟩ |
    ⟨-, busy, -, hs⟩ | ⟨-, -, -, hs⟩ | ⟨-, resp, ready, hs⟩⟩ := step_cases s <;> rw [hs] at h
  case inr.inr.inr.inr.inr.inr.inl => exact .works busy (.ends h)
  all_goals cases h
  · exact .resets rst
  · exact .waits
  · exact .accepts idle
  · exact .waits
  · exact .works busy (sequencerStep_seqStep (coreInv_advance inv) busy)
  · exact .waits
  · exact .consumes resp ready

/-- Settles O43: a step advances, and then applies one operation that keeps the invariant. -/
theorem everyStepKeepsTheInvariant : Obligations.EveryStepKeepsTheInvariant := by
  intro s t inv h
  have invA := coreInv_advance inv
  cases stepTo_of_step inv h with
  | resets => exact coreInv_resetEdge _
  | waits => exact invA
  | accepts idle =>
    exact coreInv_atRest invA ⟨rfl, rfl, rfl, rfl⟩ invA.resetApplied
      (notKs_of_phase idle (by decide)) (.inr (.inl rfl))
  | works busy work => exact work.keeps_inv invA
  | consumes resp =>
    exact coreInv_atRest invA ⟨rfl, rfl, rfl, rfl⟩ invA.resetApplied
      (notKs_of_phase resp (by decide)) (.inl rfl)

/-! ### What a step leaves unchanged -/

theorem SeqStep.keeps_keys (h : SeqStep s t) (inv : CoreInv s) (invalid : ¬ ValidInit s) :
    KeepsInstance s t := by
  cases h with
  | ends h => exact (completes_of_runLatched h).kept invalid
  | toKs | toEnc | toDec | encMore | decMore => exact ⟨rfl, rfl, rfl, rfl⟩
  | ksMore hf => exact absurd (validInit_of_ksProgress (inv.ks hf)) invalid

/-- Settles O45: only a valid INIT writes the keys, and only a valid INIT is in `KS`. -/
theorem onlyInitAndResetChangeTheInstance : Obligations.OnlyInitAndResetChangeTheInstance := by
  intro s t inv h noReset notInit
  rw [← validInit_iff] at notInit
  suffices kept : KeepsInstance s t from ⟨kept.keyValid, kept.ksize, kept.rounds, kept.rk⟩
  cases stepTo_of_step inv h with
  | resets rst => exact absurd (rst.symm.trans noReset) (by decide)
  | waits | accepts | consumes => exact ⟨rfl, rfl, rfl, rfl⟩
  | works busy work =>
    obtain ⟨keyValid, ksize, rounds, rk⟩ :=
      work.keeps_keys (coreInv_advance inv) fun valid => notInit ⟨busy, valid⟩
    exact ⟨keyValid, ksize, rounds, rk⟩

/-- Either the command goes on and its response is not yet written, or PHASE is RESP. -/
theorem SeqStep.response (h : SeqStep s t) :
    (t.rspStatus = s.rspStatus ∧ t.rspData = s.rspData) ∨ phase t = .resp := by
  cases h with
  | ends h => exact .inr (completes_of_runLatched h).phase_eq
  | toKs | toEnc | toDec | encMore | decMore => exact .inl ⟨rfl, rfl⟩
  | ksMore => simp [ksIteration_eq]

/-- Settles O46: among the operations of a step only the end of a command writes the register. -/
theorem responseIsWrittenOnceByCompletion : Obligations.ResponseIsWrittenOnceByCompletion := by
  intro s t inv h noReset
  cases stepTo_of_step inv h with
  | resets rst => exact absurd (rst.symm.trans noReset) (by decide)
  | waits | accepts | consumes => exact .inl ⟨rfl, rfl⟩
  | works busy work => exact work.response.imp_right fun resp => ⟨busy, resp⟩

end Sys2Proof.Proofs.CoreState
end

section
/-! PROOFS. What a command answers depends on the command, its operand and the keys alone
(10_state.md R35), so neither the internal registers nor the pace of a busy core show in it. -/

namespace Sys2Proof.Proofs.CoreState

open Sys2Proof Sys2Proof.Machine Sys2Proof.Laws

variable {s s' t u v : State}

/-! ### States that a command cannot tell apart -/

/-- The same command and operand over the same keys. Entries of RK are read while there is a key only. -/
structure SameInputs (s s' : State) : Prop extends KeepsInstance s s' where
  cmd : s'.cmd = s.cmd
  din : s'.din = s.din
  keys : s.keyValid = true → instanceKeys s' = instanceKeys s

/-- The same response, and the same keys as far as ROUNDS reaches. -/
structure SameAnswer (t u : State) : Prop where
  rspStatus : t.rspStatus = u.rspStatus
  rspData : t.rspData = u.rspData
  keyValid : t.keyValid = u.keyValid
  ksize : t.ksize = u.ksize
  rounds : t.rounds = u.rounds
  rk : t.rk.take t.rounds.toNat = u.rk.take u.rounds.toNat

theorem SameAnswer.refl (t : State) : SameAnswer t t := ⟨rfl, rfl, rfl, rfl, rfl, rfl⟩

theorem SameAnswer.trans (h : SameAnswer t u) (h' : SameAnswer u v) : SameAnswer t v where
  rspStatus := h.rspStatus.trans h'.rspStatus
  rspData := h.rspData.trans h'.rspData
  keyValid := h.keyValid.trans h'.keyValid
  ksize := h.ksize.trans h'.ksize
  rounds := h.rounds.trans h'.rounds
  rk := h.rk.trans h'.rk

/-- Two outcomes of one command: the same answer, and RK the same beyond ROUNDS too when the free values
of both are those of one step (10_state.md R27). -/
structure SameOutcome (t u : State) : Prop extends SameAnswer t u where
  store : t.tick = u.tick → t.rk = u.rk

theorem sameOutcome_of_response (kept : KeepsInstance t u) (status : u.rspStatus = t.rspStatus)
    (data : u.rspData = t.rspData) : SameOutcome u t where
  rspStatus := status
  rspData := data
  keyValid := kept.keyValid
  ksize := kept.ksize
  rounds := kept.rounds
  rk := by rw [kept.rk, kept.rounds]
  store _ := kept.rk

theorem sameOutcome_raise (h : SameInputs s s') (e : CmdError) :
    SameOutcome (raise e s') (raise e s) :=
  sameOutcome_of_response ⟨h.keyValid, h.ksize, h.rounds, h.rk⟩ rfl rfl

theorem sameOutcome_finishInit (z : BitVec 1) (r : BitVec 8) (keys : List RoundKey) (s s' : State)
    (h : keys.length = r.toNat) :
    SameOutcome (finishInit z r (rkWriteAll keys s')) (finishInit z r (rkWriteAll keys s)) where
  rspStatus := rfl
  rspData := rfl
  keyValid := rfl
  ksize := rfl
  rounds := rfl
  rk := by simp [← h]
  store (tick : s'.tick = s.tick) := by
    rw [finishInit_rkWriteAll_rk _ _ _ _ h, finishInit_rkWriteAll_rk _ _ _ _ h, tick]

theorem sameOutcome_cipherCommand (h : SameInputs s s')
    (cipher : Block → List RoundKey → Block) (len : BitVec 8) :
    ∃ t u, cipherCommand cipher len s = .next t ∧ cipherCommand cipher len s' = .next u ∧
      SameOutcome u t := by
  unfold cipherCommand
  rw [h.keyValid, h.din]
  cases checked : cipherCheck s.keyValid len with
  | some e => exact ⟨_, _, rfl, rfl, sameOutcome_raise h e⟩
  | none =>
    simp only [h.keys (keyValid_of_cipherCheck checked)]
    exact ⟨_, _, rfl, rfl,
      sameOutcome_of_response ⟨h.keyValid, h.ksize, h.rounds, h.rk⟩ rfl rfl⟩

theorem sameOutcome_exec (h : SameInputs s s') (i : Instr) :
    ∃ t u, exec i s = .next t ∧ exec i s' = .next u ∧ SameOutcome u t := by
  cases i with
  | init len rnd rsv =>
    simp only [exec, execInit, h.din]
    cases initCheck len rnd with
    | some e => exact ⟨_, _, rfl, rfl, sameOutcome_raise h e⟩
    | none => exact ⟨_, _, rfl, rfl, sameOutcome_finishInit _ _ _ s s' (initKeys_length ..)⟩
  | encrypt len => exact sameOutcome_cipherCommand h encryptBlock len
  | decrypt len => exact sameOutcome_cipherCommand h decryptBlock len
  | blockSize =>
    exact ⟨_, _, rfl, rfl, sameOutcome_of_response ⟨h.keyValid, h.ksize, h.rounds, h.rk⟩ rfl rfl⟩

/-- 10_state.md R35: nothing but the command, its operand and the keys decides the outcome. -/
theorem sameOutcome_runLatched (h : SameInputs s s') (ht : runLatched s = .next t)
    (hu : runLatched s' = .next u) : SameOutcome u t := by
  unfold runLatched at ht hu
  rw [h.cmd] at hu
  cases decoded : decodeWord s.cmd with
  | ok i =>
    rw [decoded] at ht hu
    obtain ⟨t', u', hs, hs', outcome⟩ := sameOutcome_exec h i
    cases hs.symm.trans ht
    cases hs'.symm.trans hu
    exact outcome
  | error e =>
    rw [decoded] at ht hu
    cases ht
    cases hu
    rw [illegalCommand, h.cmd]
    exact sameOutcome_raise h _

/-- Settles O47: the four registers are none of a command's inputs. -/
theorem internalRegistersAreUnobservable : Obligations.InternalRegistersAreUnobservable := by
  intro s st kr c f t u ht hu
  have same : SameInputs s { s with stateReg := st, kreg := kr, rc := c, fsm := f } :=
    ⟨⟨rfl, rfl, rfl, rfl⟩, rfl, rfl, fun _ => rfl⟩
  have outcome := sameOutcome_runLatched same ht hu
  have endT := completes_of_runLatched ht
  have endU := completes_of_runLatched hu
  exact ⟨outcome.rspStatus, outcome.rspData, outcome.keyValid, outcome.ksize, outcome.rounds,
    outcome.store (endU.tick.trans endT.tick.symm), endU.phase_eq.trans endT.phase_eq.symm⟩

/-! ### The pace of a busy core -/

/-- The core holds the answer that `u` holds, or its latched command will give it. -/
def Answers (u s : State) : Prop :=
  (phase s = .busy ∧ ∃ v, runLatched s = .next v ∧ SameAnswer v u) ∨
  (phase s = .resp ∧ SameAnswer s u)

theorem sameInputs_advance (inv : CoreInv s) : SameInputs s (advance s) :=
  have kept : KeepsInstance s (advance s) := ⟨rfl, rfl, rfl, rfl⟩
  ⟨kept, rfl, rfl, kept.instanceKeys_eq inv⟩

theorem Answers.advance (h : Answers u s) (inv : CoreInv s) : Answers u (advance s) := by
  obtain ⟨busy, v, hv, same⟩ | ⟨resp, same⟩ := h
  · obtain ⟨w, hw, -⟩ := runLatched_completes (Machine.advance s)
    have outcome := sameOutcome_runLatched (sameInputs_advance inv) hv hw
    exact .inl ⟨busy, w, hw, outcome.toSameAnswer.trans same⟩
  · obtain ⟨status, data, keyValid, ksize, rounds, rk⟩ := same
    exact .inr ⟨resp, status, data, keyValid, ksize, rounds, rk⟩

theorem Answers.seqStep (h : Answers u s) (inv : CoreInv s) (busy : phase s = .busy)
    (work : SeqStep s t) : Answers u t := by
  obtain ⟨-, v, hv, same⟩ | ⟨resp, -⟩ := h
  · obtain ⟨busyT, refines⟩ | ⟨respT, ends⟩ := work.refines inv busy
    · exact .inl ⟨busyT, v, refines.trans hv, same⟩
    · cases hv.symm.trans ends
      exact .inr ⟨respT, same⟩
  · exact nomatch busy.symm.trans resp

/-- The answer survives every edge that neither resets the core nor takes the response. -/
theorem Answers.step (h : Answers u s) (inv : CoreInv s) (hs : step s = .next t)
    (noReset : (nextEdge s).rst = false) (notTaken : (nextEdge s).rspReady = false) :
    Answers u t := by
  cases stepTo_of_step inv hs with
  | resets rst => exact nomatch rst.symm.trans noReset
  | waits => exact h.advance inv
  | accepts idle =>
    obtain ⟨busy, -⟩ | ⟨resp, -⟩ := h
    · exact nomatch idle.symm.trans busy
    · exact nomatch idle.symm.trans resp
  | works busy work => exact (h.advance inv).seqStep (coreInv_advance inv) busy work
  | consumes resp ready => exact nomatch ready.symm.trans notTaken

theorem SeqStep.script_eq (h : SeqStep s t) : t.script = s.script := by
  cases h with
  | ends h => exact (completes_of_runLatched h).script
  | toKs | toEnc | toDec | encMore | decMore => rfl
  | ksMore => rw [ksIteration_eq]

theorem script_of_step (inv : CoreInv s) (h : step s = .next t) : t.script = s.script.tail := by
  cases stepTo_of_step inv h with
  | resets | waits | accepts | consumes => rfl
  | works busy work => exact work.script_eq

theorem runSteps_succ {n : Nat} (h : runSteps (n + 1) s = .next t) :
    ∃ m, step s = .next m ∧ runSteps n m = .next t := by
  rw [runSteps] at h
  cases hs : step s with
  | next m => exact ⟨m, rfl, by rwa [hs] at h⟩
  | fault r => cases r
  | refused r => rw [hs] at h; cases h

theorem Answers.runSteps (es : List Edge) {rest : List Edge} (h : Answers u s) (inv : CoreInv s)
    (script : s.script = es ++ rest) (quiet : ∀ e ∈ es, e.rst = false ∧ e.rspReady = false)
    (run : runSteps es.length s = .next t) : Answers u t := by
  induction es generalizing s with
  | nil =>
    cases run
    exact h
  | cons e es ih =>
    obtain ⟨m, hs, run⟩ := runSteps_succ run
    have edge : nextEdge s = e := by rw [nextEdge, script]; rfl
    obtain ⟨noReset, notTaken⟩ := quiet e List.mem_cons_self
    rw [← edge] at noReset notTaken
    exact ih (h.step inv hs noReset notTaken) (everyStepKeepsTheInvariant s m inv hs)
      (by rw [script_of_step inv hs, script]; rfl)
      (fun e he => quiet e (List.mem_cons_of_mem _ he)) run

/-- Settles O53: the busy core is about to give its command's answer, and every quiet edge keeps that. -/
theorem paceDoesNotChangeTheAnswer : Obligations.PaceDoesNotChangeTheAnswer := by
  intro s t es rest inv busy script quiet run resp
  obtain ⟨u, hu, -⟩ := runLatched_completes s
  have start : Answers u s := .inl ⟨busy, u, hu, .refl u⟩
  obtain ⟨stillBusy, -⟩ | ⟨-, rspStatus, rspData, keyValid, ksize, rounds, rk⟩ :=
    start.runSteps es inv script quiet run
  · exact nomatch resp.symm.trans stillBusy
  · exact ⟨u, hu, rspStatus, rspData, keyValid, ksize, rounds, rk⟩

end Sys2Proof.Proofs.CoreState
end

section
/-! PROOFS. What the round-key store gives a later command (20_memory.md): the instance of a successful
INIT, the answers of ENCRYPT and DECRYPT under it, and the repetition of a command. -/

namespace Sys2Proof.Proofs.Memory

open Sys2Proof Sys2Proof.Machine Sys2Proof.Laws Sys2Proof.Proofs.CoreState

variable {s s' t t' u : State}

/-! ### ENCRYPT and DECRYPT -/

theorem cipherCommand_ok (cipher : Block → List RoundKey → Block) (valid : s.keyValid = true) :
    cipherCommand cipher 8 s =
      .next (finishCipher (cipher (blockOperand s.din) (instanceKeys s)) s) := by
  rw [cipherCommand, (cipherCheck_eq_none_iff s.keyValid 8).2 ⟨valid, rfl⟩]

/-- An answer depends on the instance, the block and the length field alone (20_memory.md R63). -/
theorem cipherCommand_answer_congr (cipher : Block → List RoundKey → Block) {len : BitVec 8}
    (valid : s.keyValid = s'.keyValid) (keys : instanceKeys s = instanceKeys s')
    (block : blockOperand s.din = blockOperand s'.din)
    (ht : cipherCommand cipher len s = .next t) (ht' : cipherCommand cipher len s' = .next t') :
    t.rspStatus = t'.rspStatus ∧ t.rspData = t'.rspData := by
  unfold cipherCommand at ht ht'
  rw [← valid, ← keys, ← block] at ht'
  generalize cipherCheck s.keyValid len = check at ht ht'
  cases check with
  | some e =>
    cases ht
    cases ht'
    exact ⟨rfl, rfl⟩
  | none =>
    cases ht
    cases ht'
    exact ⟨rfl, rfl⟩

/-- Settles O48: the one fact about what both commands share, used for each. -/
theorem cipherAnswersDependOnBlockAndInstance :
    Obligations.CipherAnswersDependOnBlockAndInstance := by
  intro s s' len rnd rsv t t' u u' valid keys block ht ht' hu hu'
  obtain ⟨encStatus, encData⟩ := cipherCommand_answer_congr encryptBlock valid keys block ht ht'
  obtain ⟨decStatus, decData⟩ := cipherCommand_answer_congr decryptBlock valid keys block hu hu'
  exact ⟨encStatus, encData, decStatus, decData⟩

/-! ### The instance of a successful INIT -/

theorem instanceKeys_of_prefix {keys rest : List RoundKey} (store : s.rk = keys ++ rest)
    (size : keys.length = s.rounds.toNat) : instanceKeys s = keys := by
  rw [instanceKeys_eq_take s (by simp [store, size]), store, ← size, List.take_left]

/-- Any state that kept the key flag, the round count and the store of a successful INIT reads that
INIT's schedule (41_key_schedule.md R138). -/
theorem instanceKeys_of_init {len rnd : BitVec 8} {rsv : BitVec 12}
    (checked : initCheck len rnd = none) (ht : exec (.init len rnd rsv) s = .next t)
    (valid : u.keyValid = t.keyValid) (rounds : u.rounds = t.rounds) (rk : u.rk = t.rk) :
    u.keyValid = true ∧ instanceKeys u = initKeys len s.din rnd.toNat := by
  simp only [exec, execInit, checked] at ht
  cases ht
  rw [finishInit_rkWriteAll_rk _ _ _ _ (initKeys_length ..)] at rk
  exact ⟨valid, instanceKeys_of_prefix rk (by rw [initKeys_length, rounds, finishInit_rounds])⟩

/-- Settles O30: both commands succeed under the keys the store still holds. -/
theorem laterCommandsUseTheNewInstance : Obligations.LaterCommandsUseTheNewInstance := by
  intro s t u len rnd rnd' rsv rsv' length atLeastOne atMostMax ht keyValid rounds rk
  have checked := (initCheck_eq_none_iff_bounds len rnd).2 ⟨length, atLeastOne, atMostMax⟩
  obtain ⟨valid, keys⟩ := instanceKeys_of_init checked ht keyValid rounds rk
  have enc := cipherCommand_ok encryptBlock valid
  have dec := cipherCommand_ok decryptBlock valid
  rw [keys] at enc dec
  exact ⟨_, _, enc, dec, rfl, rfl, rfl, rfl⟩

/-! ### A command repeated -/

/-- No command writes its own latched inputs. -/
theorem runLatched_keeps_inputs (h : runLatched s = .next t) : t.cmd = s.cmd ∧ t.din = s.din := by
  obtain ⟨e, h'⟩ | ⟨-, -, h'⟩ | ⟨-, -, h'⟩ | ⟨-, -, h'⟩ | ⟨-, h'⟩ := runLatched_cases s <;>
    cases h'.symm.trans h <;> exact ⟨rfl, rfl⟩

/-- A valid INIT writes the whole instance, so its outcome does not depend on the one before it. -/
theorem sameOutcome_runLatched_init (valid : ValidInit s) (cmd : s'.cmd = s.cmd)
    (din : s'.din = s.din) (ht : runLatched s = .next t) (hu : runLatched s' = .next u) :
    SameOutcome u t := by
  have valid' : ValidInit s' := by rwa [ValidInit, cmd]
  rw [runLatched_init valid] at ht
  rw [runLatched_init valid', cmd, din] at hu
  cases ht
  cases hu
  exact sameOutcome_finishInit _ _ _ s s' (initKeys_length ..)

/-- Settles O49: a valid INIT writes the same instance again; any other command finds the inputs and the
instance it found the first time. -/
theorem repeatedCommandsAnswerTheSame : Obligations.RepeatedCommandsAnswerTheSame := by
  intro s t u n inv _ ht hu
  obtain ⟨cmd, din⟩ := runLatched_keeps_inputs ht
  have outcome : SameOutcome u t := by
    by_cases valid : ValidInit s
    · exact sameOutcome_runLatched_init (s' := { t with tick := n }) valid cmd din ht hu
    · obtain ⟨keyValid, ksize, rounds, rk⟩ := (completes_of_runLatched ht).kept valid
      have kept : KeepsInstance s { t with tick := n } := ⟨keyValid, ksize, rounds, rk⟩
      exact sameOutcome_runLatched ⟨kept, cmd, din, kept.instanceKeys_eq inv⟩ ht hu
  exact ⟨outcome.rspStatus, outcome.rspData, outcome.keyValid, outcome.ksize, outcome.rounds,
    outcome.rk⟩

end Sys2Proof.Proofs.Memory
end

section
/-! PROOFS. The command word and its decoder (30_encoding.md R74, R75, R86, R87): the four fields of a
packed word, the word of four fields, and which words decode. -/

namespace Sys2Proof.Proofs.Encoding

open Sys2Proof Sys2Proof.Machine Sys2Proof.Laws Sys2Proof.Proofs.CoreState

/-! ### The fields of a word -/

/-- A field is known by its bits. -/
theorem extractLsb'_eq_of_getLsbD {k n : Nat} {w : CmdWord} {field : BitVec n}
    (bits : ∀ b, b < n → w.getLsbD (k + b) = field.getLsbD b) : w.extractLsb' k n = field := by
  apply BitVec.eq_of_getLsbD_eq
  intro b hb
  simpa [hb] using bits b hb

section Fields

variable (op : BitVec 4) (len rnd : BitVec 8) (rsv : BitVec 12)

@[simp] theorem cmdLen_packWord : cmdLen (packWord op len rnd rsv) = len :=
  extractLsb'_eq_of_getLsbD fun b hb => by
    simp [packWord_getLsbD op len rnd rsv (4 + b) (by omega), show 4 + b < 12 by omega]

@[simp] theorem cmdRnd_packWord : cmdRnd (packWord op len rnd rsv) = rnd :=
  extractLsb'_eq_of_getLsbD fun b hb => by
    simp [packWord_getLsbD op len rnd rsv (12 + b) (by omega), show ¬ 12 + b < 4 by omega,
      show 12 + b < 20 by omega]

@[simp] theorem cmdRsv_packWord : cmdRsv (packWord op len rnd rsv) = rsv :=
  extractLsb'_eq_of_getLsbD fun b hb => by
    simp [packWord_getLsbD op len rnd rsv (20 + b) (by omega), show ¬ 20 + b < 4 by omega,
      show ¬ 20 + b < 12 by omega]

end Fields

/-- A word is made of its four fields: no bit of it lies outside them. -/
theorem packWord_fields (w : CmdWord) :
    packWord (cmdOp w) (cmdLen w) (cmdRnd w) (cmdRsv w) = w := by
  apply BitVec.eq_of_getLsbD_eq
  intro b hb
  simp only [packWord_getLsbD _ _ _ _ b hb, cmdOp, cmdLen, cmdRnd, cmdRsv,
    BitVec.getLsbD_extractLsb']
  by_cases inOp : b < 4
  · simp [inOp]
  by_cases inLen : b < 12
  · simp [inOp, inLen, show b - 4 < 8 by omega, show 4 + (b - 4) = b by omega]
  by_cases inRnd : b < 20
  · simp [inOp, inLen, inRnd, show b - 12 < 8 by omega, show 12 + (b - 12) = b by omega]
  · simp [inOp, inLen, inRnd, show b - 20 < 12 by omega, show 20 + (b - 20) = b by omega]

theorem packWord_eq_of_cmdOp {w : CmdWord} {op : BitVec 4} (h : cmdOp w = op) :
    packWord op (cmdLen w) (cmdRnd w) (cmdRsv w) = w := by
  rw [← h, packWord_fields]

/-- Settles O4: the formula is the definition, and each field is cut out of its sum. -/
theorem commandWordLayout : Obligations.CommandWordLayout := fun op len rnd rsv =>
  ⟨rfl, cmdOp_packWord op len rnd rsv, cmdLen_packWord op len rnd rsv,
    cmdRnd_packWord op len rnd rsv, cmdRsv_packWord op len rnd rsv⟩

/-! ### Decoder and encoder -/

theorem decodeWord_blockSize {w : CmdWord} (h : cmdOp w = 4) :
    decodeWord w = .ok (.blockSize (cmdLen w) (cmdRnd w) (cmdRsv w)) := by simp [decodeWord, h]

/-- Settles O2: OP selects the command's own arm of the decoder, which reads the fields back. -/
theorem decodeOfEncodeIsIdentity : Obligations.DecodeOfEncodeIsIdentity := by
  intro i
  cases i with
  | init len rnd rsv => exact (decodeWord_init (cmdOp_packWord 1 len rnd rsv)).trans (by simp)
  | encrypt len rnd rsv => exact (decodeWord_encrypt (cmdOp_packWord 2 len rnd rsv)).trans (by simp)
  | decrypt len rnd rsv => exact (decodeWord_decrypt (cmdOp_packWord 3 len rnd rsv)).trans (by simp)
  | blockSize len rnd rsv => exact (decodeWord_blockSize (cmdOp_packWord 4 len rnd rsv)).trans (by simp)

/-- Settles O3: whatever arm decoded the word, its command is packed from the word's own fields. -/
theorem encodeOfDecodeIsIdentity : Obligations.EncodeOfDecodeIsIdentity := by
  intro w i h
  obtain ⟨op, arm⟩ | ⟨op, arm⟩ | ⟨op, arm⟩ | ⟨op, arm⟩ | ⟨-, arm⟩ := decodeWord_cases w <;>
    cases arm.symm.trans h
  all_goals exact packWord_eq_of_cmdOp op

/-- Each command has one word, and each word at most one command. -/
theorem decodeWord_eq_ok_iff {w : CmdWord} {i : Instr} : decodeWord w = .ok i ↔ encode i = w :=
  ⟨encodeOfDecodeIsIdentity w i, fun word => word ▸ decodeOfEncodeIsIdentity i⟩

/-- Settles O1: the words of R89 are computed from R74's formula, and so they decode. -/
theorem commonFormsHaveTheirWords : Obligations.CommonFormsHaveTheirWords := by
  have both {i : Instr} {w : CmdWord} (word : encode i = w) :
      encode i = w ∧ decodeWord w = .ok i := ⟨word, decodeWord_eq_ok_iff.2 word⟩
  exact ⟨both (by decide), both (by decide), both (by decide), both (by decide), both (by decide),
    both (by decide), both (by decide), both (by decide), both (by decide), both (by decide),
    both (by decide), rfl⟩

/-! ### Which words decode -/

theorem cmdOp_encode (i : Instr) : cmdOp (encode i) = opcode i := by
  cases i with
  | init => exact OpField.init ..
  | encrypt => exact OpField.encrypt ..
  | decrypt => exact OpField.decrypt ..
  | blockSize => exact OpField.blockSize ..

theorem cmdOp_of_decodeWord {w : CmdWord} {i : Instr} (h : decodeWord w = .ok i) :
    cmdOp w = opcode i := by
  rw [← encodeOfDecodeIsIdentity w i h, cmdOp_encode]

theorem decodeWord_error {w : CmdWord} (h : cmdOp w ∉ [1, 2, 3, 4]) :
    decodeWord w = .error (.illegalOp (cmdOp w)) := by
  simp only [List.mem_cons, List.not_mem_nil, or_false, not_or] at h
  obtain ⟨notInit, notEncrypt, notDecrypt, notBlockSize⟩ := h
  rw [decodeWord, if_neg notInit, if_neg notEncrypt, if_neg notDecrypt, if_neg notBlockSize]

theorem decodeWord_error_iff (w : CmdWord) :
    (∃ e, decodeWord w = .error e) ↔ cmdOp w ∉ [1, 2, 3, 4] := by
  refine ⟨fun ⟨e, h⟩ => ?_, fun illegal => ⟨_, decodeWord_error illegal⟩⟩
  obtain ⟨-, arm⟩ | ⟨-, arm⟩ | ⟨-, arm⟩ | ⟨-, arm⟩ | ⟨illegal, -⟩ := decodeWord_cases w
  case inr.inr.inr.inr => simpa using illegal
  all_goals cases arm.symm.trans h

/-- The opcodes 0 and 5 to 15 of R86 are those that name no command. -/
theorem illegalOp_iff : ∀ op : BitVec 4, op ∉ [1, 2, 3, 4] ↔ op = 0 ∨ 5 ≤ op.toNat := by decide

/-- Settles O5: a word has the opcode of the command it decodes to, and each opcode has its arm. -/
theorem opAloneSelectsTheCommand : Obligations.OpAloneSelectsTheCommand :=
  fun w =>
    ⟨⟨fun ⟨_, _, _, h⟩ => cmdOp_of_decodeWord h, fun op => ⟨_, _, _, decodeWord_init op⟩⟩,
      ⟨fun ⟨_, _, _, h⟩ => cmdOp_of_decodeWord h, fun op => ⟨_, _, _, decodeWord_encrypt op⟩⟩,
      ⟨fun ⟨_, _, _, h⟩ => cmdOp_of_decodeWord h, fun op => ⟨_, _, _, decodeWord_decrypt op⟩⟩,
      ⟨fun ⟨_, _, _, h⟩ => cmdOp_of_decodeWord h, fun op => ⟨_, _, _, decodeWord_blockSize op⟩⟩,
      decodeWord_error_iff w |>.trans (illegalOp_iff (cmdOp w))⟩

end Sys2Proof.Proofs.Encoding
end

section
/-! PROOFS. What a latched command answers when a check fails (60_exceptions.md R202 to R208), and what of
its word and bus it does not read (30_encoding.md R78 to R82). -/

namespace Sys2Proof.Proofs.Encoding

open Sys2Proof Sys2Proof.Machine Sys2Proof.Laws Sys2Proof.Proofs.CoreState

variable {s t : State}

/-! ### The first failing check -/

theorem execInit_raise {len rnd : BitVec 8} {e : CmdError} (failed : initCheck len rnd = some e)
    (rsv : BitVec 12) (s : State) : execInit len rnd rsv s = .next (raise e s) := by
  rw [execInit, failed]

theorem cipherCommand_raise (cipher : Block → List RoundKey → Block) {len : BitVec 8} {e : CmdError}
    (failed : cipherCheck s.keyValid len = some e) :
    cipherCommand cipher len s = .next (raise e s) := by
  rw [cipherCommand, failed]

theorem runLatched_init_raise {e : CmdError} (op : cmdOp s.cmd = 1)
    (failed : initCheck (cmdLen s.cmd) (cmdRnd s.cmd) = some e) :
    runLatched s = .next (raise e s) :=
  (runLatched_ok s _ (decodeWord_init op)).trans (execInit_raise failed (cmdRsv s.cmd) s)

theorem runLatched_cipher_raise {e : CmdError} (op : cmdOp s.cmd ∈ [2, 3])
    (failed : cipherCheck s.keyValid (cmdLen s.cmd) = some e) :
    runLatched s = .next (raise e s) := by
  obtain op | op : cmdOp s.cmd = 2 ∨ cmdOp s.cmd = 3 := by simpa using op
  · exact (runLatched_ok s _ (decodeWord_encrypt op)).trans (cipherCommand_raise _ failed)
  · exact (runLatched_ok s _ (decodeWord_decrypt op)).trans (cipherCommand_raise _ failed)

/-- Settles O23: each clause is the error of its check, which `raise` reports and does no more. -/
theorem checksRunInOrder : Obligations.ChecksRunInOrder := by
  intro s
  refine ⟨fun illegal => ?_, fun ⟨op, badLength⟩ => ?_, fun ⟨op, length, badRounds⟩ => ?_,
    fun ⟨op, noKey⟩ => ?_, fun ⟨op, valid, badLength⟩ => ?_⟩
  · exact runLatched_error s _ (decodeWord_error illegal)
  · exact runLatched_init_raise op (initCheck_badLength _ _ (by simpa using badLength))
  · exact runLatched_init_raise op (initCheck_badRounds _ _ (by simpa using length) badRounds)
  · exact runLatched_cipher_raise op (by rw [noKey, cipherCheck_noKey])
  · exact runLatched_cipher_raise op (by rw [valid, cipherCheck_badLength _ badLength])

/-! ### Lanes beyond the operand -/

/-- INIT reads of the bus only the key its length selects (R81). -/
theorem execInit_din {len rnd : BitVec 8} (rsv : BitVec 12) {d : DataIn}
    (key : initKeys len d rnd.toNat = initKeys len s.din rnd.toNat)
    (h : execInit len rnd rsv s = .next t) :
    execInit len rnd rsv { s with din := d } = .next { t with din := d } := by
  obtain ⟨e, failed, ends⟩ | ⟨passed, ends⟩ := execInit_cases len rnd rsv s <;>
    cases ends.symm.trans h
  · exact execInit_raise failed rsv _
  · simp only [execInit, passed, key]
    rfl

/-- ENCRYPT and DECRYPT read of the bus only the block (R82). -/
theorem cipherCommand_din (cipher : Block → List RoundKey → Block) {len : BitVec 8} {d : DataIn}
    (block : blockOperand d = blockOperand s.din) (h : cipherCommand cipher len s = .next t) :
    cipherCommand cipher len { s with din := d } = .next { t with din := d } := by
  obtain ⟨e, failed, ends⟩ | ⟨passed, ends⟩ := cipherCommand_cases cipher len s <;>
    cases ends.symm.trans h
  · exact cipherCommand_raise (s := { s with din := d }) cipher failed
  · simp only [cipherCommand, passed, block]
    rfl

theorem initKeys10_congr {d d' : DataIn} (key : keyOperand80 d = keyOperand80 d') (r : Nat) :
    initKeys 10 d r = initKeys 10 d' r := by
  simp [initKeys, key]

/-- Settles O24: no arm takes RSV or an unused field, and of the bus each reads its operand alone. -/
theorem unusedFieldsAndLanesAreIgnored : Obligations.UnusedFieldsAndLanesAreIgnored := by
  intro len rnd rnd' len' rsv rsv' s d
  refine ⟨rfl, rfl, rfl, rfl, fun t h => ?_, fun t key h => ?_, fun t block h => ?_,
    fun t block h => ?_⟩
  · cases h
    rfl
  · exact execInit_din rsv (initKeys10_congr key rnd.toNat) h
  · exact cipherCommand_din encryptBlock block h
  · exact cipherCommand_din decryptBlock block h

end Sys2Proof.Proofs.Encoding
end

section
/-! PROOFS. A command from its acceptance to the taking of its response (30_encoding.md R71 to R73,
70_reset_and_hazards.md R242, R245): what an edge does in each phase, and runs with what they show. -/

namespace Sys2Proof.Proofs.Encoding

open Sys2Proof Sys2Proof.Machine Sys2Proof.Laws Sys2Proof.Proofs.CoreState

variable {s t u : State}

/-! ### Accepting and running a command -/

theorem clockEdge_busy {e : Edge} (noReset : e.rst = false) (reset : s.resetApplied = true)
    (busy : phase s = .busy) : clockEdge e s = busyEdge e.pace s := by
  simp [clockEdge, noReset, reset, busy]

/-- Settles O33: IDLE is the one phase whose edge reads the command inputs. -/
theorem commandsAreAcceptedOnlyWhenReady : Obligations.CommandsAreAcceptedOnlyWhenReady := by
  refine ⟨fun s e reset noReset valid ready => ?_, fun s e v w d notReady => ?_,
    fun s e reset noReset notValid ready => ?_⟩
  · rw [clockEdge_idle noReset reset ((cmdReady_iff s).1 ready), valid]
    exact ⟨accept e.cmdWord e.din s, rfl, rfl, rfl, rfl, rfl⟩
  · have notIdle : phase s ≠ .idle := by simpa [cmdReady] using notReady
    unfold clockEdge
    cases hp : phase s with
    | idle => exact absurd hp notIdle
    | busy => rfl
    | resp => rfl
  · rw [clockEdge_idle noReset reset ((cmdReady_iff s).1 ready), notValid]
    rfl

/-- A finishing edge runs the latched command on the state with that edge taken off. -/
theorem step_finish (reset : s.resetApplied = true) (busy : phase s = .busy)
    (noReset : (nextEdge s).rst = false) (finish : (nextEdge s).pace = .finish) :
    step s = runLatched (advance s) := by
  rw [step, clockEdge_busy (s := advance s) noReset reset busy, finish]
  rfl

theorem decodeWord_of_decodeTableWord {nbits w : Nat} {i : Instr}
    (h : decodeTableWord nbits w = some i) : decodeWord (tableWord nbits w) = .ok i := by
  unfold decodeTableWord at h
  cases decoded : decodeWord (tableWord nbits w) with
  | ok j => simpa [decoded] using h
  | error e => simp [decoded] at h

/-- Settles O32: the finishing edge runs the latched word, and a placed word stands latched with that
edge next. -/
theorem stepRunsTheDecodedCommand : Obligations.StepRunsTheDecodedCommand := by
  have runs (s : State) (i : Instr) (reset : s.resetApplied = true) (busy : phase s = .busy)
      (noReset : (nextEdge s).rst = false) (finish : (nextEdge s).pace = .finish)
      (decoded : decodeWord s.cmd = .ok i) : step s = exec i (advance s) :=
    (step_finish reset busy noReset finish).trans (runLatched_ok _ i decoded)
  exact ⟨runs, fun s nbits w i decoded =>
    runs (s.withFetchWord nbits w) i rfl rfl rfl rfl (decodeWord_of_decodeTableWord decoded)⟩

/-! ### Edges that come off the script -/

/-- The state `n` edges later, `rest` left of the script, and nothing else changed. -/
def later (n : Nat) (rest : List Edge) (s : State) : State :=
  { s with script := rest, tick := s.tick + n }

theorem later_later (m n : Nat) (rest rest' : List Edge) (s : State) :
    later m rest' (later n rest s) = later (m + n) rest' s := by
  simp [later, Nat.add_assoc, Nat.add_comm m]

theorem later_accept (n : Nat) (rest : List Edge) (w : CmdWord) (d : DataIn) (s : State) :
    later n rest (accept w d s) = accept w d (later n rest s) := rfl

theorem nextEdge_of_script {e : Edge} {rest : List Edge} (script : s.script = e :: rest) :
    nextEdge s = e := by
  rw [nextEdge, script]
  rfl

theorem advance_of_script {e : Edge} {rest : List Edge} (script : s.script = e :: rest) :
    advance s = later 1 rest s := by
  rw [advance, script]
  rfl

theorem step_of_script {e : Edge} {rest : List Edge} (script : s.script = e :: rest) :
    step s = clockEdge e (later 1 rest s) := by
  rw [step, nextEdge_of_script script, advance_of_script script]

/-! ### Runs and what they show -/

/-- The next `n` edges lead from `s` to `t` and show the responses `out`. -/
structure Runs (n : Nat) (s : State) (out : List (BitVec 4 × BitVec 64)) (t : State) : Prop where
  run : runSteps n s = .next t
  shown : observe n s = out

section Runs

variable {n : Nat} {out : List (BitVec 4 × BitVec 64)} {e : Edge} {rest : List Edge}

theorem Runs.nil (s : State) : Runs 0 s [] s := ⟨rfl, rfl⟩

theorem Runs.cons (first : step s = .next t) (after : Runs n t out u) :
    Runs (n + 1) s ((responseTaken s).toList ++ out) u := by
  obtain ⟨run, shown⟩ := after
  constructor
  · simp only [runSteps, first, run]
  · simp only [observe, first, shown]

theorem responseTaken_eq_none (h : phase s = .resp → (nextEdge s).rspReady = false) :
    responseTaken s = none := by
  refine if_neg fun ⟨_, _, valid, ready⟩ => ?_
  rw [h ((rspValid_iff s).1 valid)] at ready
  contradiction

/-- An edge that takes no response shows nothing. -/
theorem Runs.cons_silent (first : step s = .next t)
    (notTaken : phase s = .resp → (nextEdge s).rspReady = false) (after : Runs n t out u) :
    Runs (n + 1) s out u := by
  have runs := after.cons first
  rwa [responseTaken_eq_none notTaken] at runs

theorem Runs.accept (reset : s.resetApplied = true) (idle : phase s = .idle)
    (script : s.script = e :: rest) (noReset : e.rst = false) (valid : e.cmdValid = true)
    (after : Runs n (Machine.accept e.cmdWord e.din (later 1 rest s)) out t) :
    Runs (n + 1) s out t := by
  refine after.cons_silent ?_ fun resp => nomatch idle.symm.trans resp
  rw [step_of_script script, clockEdge_idle (s := later 1 rest s) noReset reset idle, valid]
  rfl

theorem Runs.finish (reset : s.resetApplied = true) (busy : phase s = .busy)
    (script : s.script = e :: rest) (noReset : e.rst = false) (finish : e.pace = .finish)
    (ends : runLatched (later 1 rest s) = .next t) (after : Runs n t out u) :
    Runs (n + 1) s out u := by
  refine after.cons_silent ?_ fun resp => nomatch busy.symm.trans resp
  rw [step_of_script script, clockEdge_busy (s := later 1 rest s) noReset reset busy, finish]
  exact ends

/-- The one edge that shows something: the response as it stands in the register (R73, R242). -/
theorem Runs.take (reset : s.resetApplied = true) (resp : phase s = .resp)
    (script : s.script = e :: rest) (noReset : e.rst = false) (ready : e.rspReady = true)
    (after : Runs n (consume (later 1 rest s)) out t) :
    Runs (n + 1) s ((s.rspStatus, s.rspData) :: out) t := by
  have taken : responseTaken s = some (s.rspStatus, s.rspData) := by
    simp [responseTaken, rspValid, rspStatusPort, rspDataPort, nextEdge_of_script script, reset, resp,
      noReset, ready]
  have first : step s = .next (consume (later 1 rest s)) := by
    rw [step_of_script script, clockEdge_resp (s := later 1 rest s) noReset reset resp, ready]
    rfl
  have runs := after.cons first
  rwa [taken] at runs

/-- An edge at which a core in the phase `p` only waits: no reset, and no command presented, no progress
or no response taken. -/
def WaitsIn (p : Phase) (e : Edge) : Prop :=
  e.rst = false ∧
    match p with
    | .idle => e.cmdValid = false
    | .busy => e.pace = .hold
    | .resp => e.rspReady = false

theorem clockEdge_waits (reset : s.resetApplied = true) (waits : WaitsIn (phase s) e) :
    clockEdge e s = .next s := by
  obtain ⟨noReset, input⟩ := waits
  cases hp : phase s <;> simp only [hp] at input
  case idle => simp [clockEdge_idle noReset reset hp, input]
  case busy => simp [clockEdge_busy noReset reset hp, input, busyEdge]
  case resp => simp [clockEdge_resp noReset reset hp, input]

/-- Edges at which the core only waits are counted and show nothing. -/
theorem Runs.waits (es : List Edge) (reset : s.resetApplied = true) (script : s.script = es ++ rest)
    (waits : ∀ e ∈ es, WaitsIn (phase s) e) (after : Runs n (later es.length rest s) out t) :
    Runs (es.length + n) s out t := by
  induction es generalizing s with
  | nil =>
    subst script
    simpa [later] using after
  | cons e es ih =>
    obtain ⟨here, others⟩ := List.forall_mem_cons.1 waits
    rw [List.length_cons, Nat.add_right_comm]
    refine (ih (s := later 1 (es ++ _) s) reset rfl others ?_).cons_silent ?_ fun resp => ?_
    · rwa [later_later]
    · rw [step_of_script (rest := es ++ _) script, clockEdge_waits (s := later 1 _ s) reset here]
    · rw [nextEdge_of_script script]
      exact (resp ▸ here).2

end Runs

/-- Settles O41: accept, hold, finish, wait, take; the last edge alone shows a response. -/
theorem eachCommandGivesExactlyOneResponse : Obligations.EachCommandGivesExactlyOneResponse := by
  intro s holds waits rest first last taken reset idle script firstNoReset valid holding lastNoReset
    finish waiting takenNoReset ready
  obtain ⟨t, meaning, ends⟩ := runLatched_completes
    (accept first.cmdWord first.din (later (holds.length + 2) (waits ++ taken :: rest) s))
  have edges : 1 + holds.length + 1 = holds.length + 2 := by omega
  have runs : Runs (holds.length + (waits.length + 1 + 1) + 1) s [(t.rspStatus, t.rspData)]
      (consume (later 1 rest (later waits.length (taken :: rest) t))) := by
    refine .accept (rest := holds ++ last :: (waits ++ taken :: rest)) reset idle (by simp [script])
      firstNoReset valid ?_
    refine .waits holds reset rfl holding ?_
    refine .finish reset rfl rfl lastNoReset finish (t := t) ?_ ?_
    · rw [later_later, later_accept, later_later, edges, meaning]
    refine .waits waits (ends.resetApplied.trans reset) ends.script (ends.phase_eq ▸ waiting) ?_
    exact .take (ends.resetApplied.trans reset) ends.phase_eq rfl takenNoReset ready (.nil _)
  have steps : holds.length + waits.length + 3 = holds.length + (waits.length + 1 + 1) + 1 := by omega
  rw [steps]
  exact ⟨t, _, meaning, runs.shown, runs.run, rfl, rfl, rfl, rfl, rfl, rfl⟩

end Sys2Proof.Proofs.Encoding
end

section
/-! PROOFS. The host's side: where the assembler places an operand (30_encoding.md R88), and the lengths
that host and core reject between them (30_encoding.md R76, 60_exceptions.md R202, R203). -/

namespace Sys2Proof.Proofs.Encoding

open Sys2Proof Sys2Proof.Machine Sys2Proof.Laws Sys2Proof.Proofs.CoreState Sys2Proof.Proofs.Operands

/-! ### The operand on the bus -/

section Placed

variable {len v : Nat}

/-- An operand that fits its lanes is the bus shifted up past the lanes after it. -/
theorem placeOperand_toNat (fits : len ≤ 16) (bound : v < 2 ^ (8 * len)) :
    (placeOperand len v).toNat = v * 2 ^ (128 - 8 * len) := by
  rw [placeOperand, BitVec.toNat_ofNat, Nat.mod_eq_of_lt]
  calc v * 2 ^ (128 - 8 * len) < 2 ^ (8 * len) * 2 ^ (128 - 8 * len) :=
        Nat.mul_lt_mul_of_pos_right bound (Nat.two_pow_pos _)
    _ = 2 ^ 128 := by rw [← Nat.pow_add, Nat.add_sub_cancel' (by omega)]

/-- The field of the operand's own lanes holds the operand. -/
theorem placeOperand_top {w : Nat} (fits : len ≤ 16) (bound : v < 2 ^ (8 * len))
    (width : 128 - 8 * len + w = 128) :
    ((placeOperand len v).extractLsb' (128 - 8 * len) w).toNat = v := by
  rw [topField_toNat _ width, placeOperand_toNat fits bound, ← Nat.shiftLeft_eq,
    Nat.shiftLeft_shiftRight]

/-- The field of the lanes after the operand is zero. -/
theorem placeOperand_bottom (fits : len ≤ 16) (bound : v < 2 ^ (8 * len)) :
    (placeOperand len v).extractLsb' 0 (128 - 8 * len) = 0 := by
  apply BitVec.eq_of_toNat_eq
  rw [BitVec.extractLsb'_toNat, placeOperand_toNat fits bound]
  simp

/-- A lane of the operand is one of its big-endian bytes. -/
theorem lane_placeOperand {j : Nat} (fits : len ≤ 16) (bound : v < 2 ^ (8 * len)) (hj : j < len) :
    lane (placeOperand len v) j = BitVec.ofNat 8 (v >>> (8 * (len - 1 - j))) := by
  apply BitVec.eq_of_toNat_eq
  have weight : 120 - 8 * j = (128 - 8 * len) + 8 * (len - 1 - j) := by omega
  rw [lane_toNat, placeOperand_toNat fits bound, weight, Nat.shiftRight_add, ← Nat.shiftLeft_eq,
    Nat.shiftLeft_shiftRight, BitVec.toNat_ofNat]

theorem lanes_placeOperand (fits : len ≤ 16) (bound : v < 2 ^ (8 * len)) :
    lanes (placeOperand len v) len = natToBytes len v := by
  rw [natToBytes_eq_map]
  exact List.map_congr_left fun j hj => lane_placeOperand fits bound (List.mem_range.1 hj)

/-- In a lane after the operand stands a byte of the zeros it was shifted up by. -/
theorem lane_placeOperand_beyond {j : Nat} (fits : len ≤ 16) (bound : v < 2 ^ (8 * len))
    (hj : len ≤ j) (inBus : j < 16) : lane (placeOperand len v) j = 0 := by
  apply BitVec.eq_of_toNat_eq
  have above : 128 - 8 * len = 8 * (j - len) + 8 + (120 - 8 * j) := by omega
  rw [lane_toNat, placeOperand_toNat fits bound, above, Nat.pow_add, ← Nat.mul_assoc,
    ← Nat.shiftLeft_eq _ (120 - 8 * j), Nat.shiftLeft_shiftRight, Nat.pow_add, ← Nat.mul_assoc]
  exact Nat.mul_mod_left _ 256

end Placed

/-! ### The lines of a program -/

theorem assembleInit_eq {len key : Nat} {rounds : Option Nat} (fits : len ≤ 16)
    (bound : key < 2 ^ (8 * len)) (count : rounds.getD 32 < 256) :
    assembleInit key len rounds =
      some (encode (.init (BitVec.ofNat 8 len) (BitVec.ofNat 8 (rounds.getD 32)) 0),
        placeOperand len key) := by
  simp [assembleInit, operandFits, roundsFit, fits, bound, count]

theorem assembleCipher_eq (mk : BitVec 8 → Instr) {blk : Nat} {len : Option Nat}
    (fits : len.getD 8 ≤ 16) (bound : blk < 2 ^ (8 * len.getD 8)) :
    assembleCipher mk blk len =
      some (encode (mk (BitVec.ofNat 8 (len.getD 8))), placeOperand (len.getD 8) blk) := by
  simp [assembleCipher, operandFits, fits, bound]

theorem assemble_encrypt {blk : Nat} {len : Option Nat} (fits : len.getD 8 ≤ 16)
    (bound : blk < 2 ^ (8 * len.getD 8)) : assemble (.encrypt blk len) =
      some (encode (.encrypt (BitVec.ofNat 8 (len.getD 8)) 0 0), placeOperand (len.getD 8) blk) :=
  assembleCipher_eq (fun l => .encrypt l 0 0) fits bound

theorem assemble_decrypt {blk : Nat} {len : Option Nat} (fits : len.getD 8 ≤ 16)
    (bound : blk < 2 ^ (8 * len.getD 8)) : assemble (.decrypt blk len) =
      some (encode (.decrypt (BitVec.ofNat 8 (len.getD 8)) 0 0), placeOperand (len.getD 8) blk) :=
  assembleCipher_eq (fun l => .decrypt l 0 0) fits bound

/-- Settles O54: each line's word and bus by its equation, and the bus by where it places the operand. -/
theorem assemblerPlacesTheOperands : Obligations.AssemblerPlacesTheOperands := by
  refine ⟨fun len v r fits bound count => ?_, fun _ _ => rfl, fun _ => ⟨rfl, rfl⟩,
    fun key rounds bound count => ?_, fun key rounds bound count => ?_, fun blk bound => ?_, rfl,
    fun _ _ => rfl, rfl, rfl⟩
  · exact ⟨placeOperand len v, assembleInit_eq (rounds := some r) fits bound count,
      assemble_encrypt (len := some len) fits bound, assemble_decrypt (len := some len) fits bound,
      lanes_placeOperand fits bound,
      fun j => lane_placeOperand_beyond fits bound⟩
  · exact ⟨placeOperand 10 key, assembleInit_eq (len := 10) (by decide) bound count, rfl,
      placeOperand_top (len := 10) (by decide) bound rfl,
      placeOperand_bottom (len := 10) (by decide) bound⟩
  · exact ⟨placeOperand 16 key, assembleInit_eq (len := 16) (by decide) bound count, rfl,
      (placeOperand_toNat (len := 16) (by decide) bound).trans (Nat.mul_one key)⟩
  · exact ⟨placeOperand 8 blk, assemble_encrypt (len := none) (by decide) bound,
      assemble_decrypt (len := none) (by decide) bound,
      placeOperand_top (len := 8) (by decide) bound rfl,
      placeOperand_bottom (len := 8) (by decide) bound⟩

/-! ### Wrong lengths -/

/-- What an accepted command does is what its instruction means. -/
theorem runLatched_accept_encode (i : Instr) (d : DataIn) (s : State) :
    runLatched (accept (encode i) d s) = exec i (accept (encode i) d s) :=
  runLatched_ok _ i (decodeOfEncodeIsIdentity i)

section Lengths

variable {n : Nat} (h : n ≤ 255)

include h

/-- LEN carries every length up to 255 (R76), and so does the response that reports it. -/
theorem toNat_lengthField : (BitVec.ofNat 8 n).toNat = n := by
  rw [BitVec.toNat_ofNat]
  omega

theorem lengthField_ne {m : BitVec 8} (wrong : n ≠ m.toNat) : BitVec.ofNat 8 n ≠ m := fun e =>
  wrong (by rw [← e, toNat_lengthField h])

theorem toNat_lengthReported : ((BitVec.ofNat 8 n).setWidth 64).toNat = n := by
  rw [BitVec.toNat_setWidth, toNat_lengthField h]
  omega

end Lengths

/-- Settles O55: above 255 the host answers itself; up to 255 the core's length check fails. -/
theorem hostAndCoreRejectWrongLengths : Obligations.HostAndCoreRejectWrongLengths := by
  refine ⟨fun key rounds s not10 not16 => ?_, fun blk s not8 valid => ?_⟩
  · by_cases encodable : key.length ≤ 255
    · have failed := initCheck_badLength (BitVec.ofNat 8 key.length) rounds
        ⟨lengthField_ne encodable not10, lengthField_ne encodable not16⟩
      exact .inr ⟨_, _, _, if_pos encodable,
        (runLatched_accept_encode _ _ s).trans (execInit_raise failed 0 _), rfl,
        toNat_lengthReported encodable, rfl, rfl⟩
    · exact .inl ⟨by omega, if_neg encodable⟩
  · by_cases encodable : blk.length ≤ 255
    · have failed := cipherCheck_badLength (BitVec.ofNat 8 blk.length) (lengthField_ne encodable not8)
      rw [← valid] at failed
      exact .inr ⟨_, _, _, _, _, if_pos encodable, if_pos encodable,
        (runLatched_accept_encode _ _ s).trans (cipherCommand_raise _ failed),
        (runLatched_accept_encode _ _ s).trans (cipherCommand_raise _ failed), rfl,
        toNat_lengthReported encodable, rfl, toNat_lengthReported encodable⟩
    · exact .inl ⟨by omega, if_neg encodable, if_neg encodable⟩

end Sys2Proof.Proofs.Encoding
end

section
/-! PROOFS. The four look-up tables (40_lookup_tables.md R100 to R106) by formula and as inverses, and
where the permutation layers move each bit (42_round_transforms.md R153, R154). -/

namespace Sys2Proof.Proofs.Tables

open Sys2Proof Sys2Proof.Machine Sys2Proof.Laws

/-! ### Sbox -/

@[simp] theorem sboxInv_sbox : ∀ x : Nibble, sboxInv (sbox x) = x := by decide

@[simp] theorem sbox_sboxInv : ∀ v : Nibble, sbox (sboxInv v) = v := by decide

theorem sbox_ne_self : ∀ x : Nibble, sbox x ≠ x := by decide

theorem sbox_bijective : Function.Bijective sbox :=
  Function.bijective_iff_has_inverse.mpr ⟨sboxInv, sboxInv_sbox, sbox_sboxInv⟩

/-- Settles O6: the entries are looked up, and the inverse table makes Sbox a bijection. -/
theorem sboxTablesAreInverse : Obligations.SboxTablesAreInverse :=
  ⟨by decide, by decide, fun x => ⟨sboxInv_sbox x, sbox_sboxInv x, sbox_ne_self x⟩, sbox_bijective,
    by decide⟩

/-! ### PBox -/

/-- The table is the 4-by-16 transposition of bit positions (R103). -/
theorem pbox_val : ∀ i : BitIndex, (pbox i).val = 16 * (i.val % 4) + i.val / 4 := by decide

/-- The inverse table is the 16-by-4 transposition of bit positions (R105). -/
theorem pboxInv_val : ∀ j : BitIndex, (pboxInv j).val = 4 * (j.val % 16) + j.val / 16 := by decide

/-- The two formulas of R103 agree. -/
theorem pbox_val_mod (i : BitIndex) :
    (pbox i).val = if i.val = 63 then 63 else (16 * i.val) % 63 := by
  rw [pbox_val]
  split <;> omega

/-- The two formulas of R105 agree. -/
theorem pboxInv_val_mod (j : BitIndex) :
    (pboxInv j).val = if j.val = 63 then 63 else (4 * j.val) % 63 := by
  rw [pboxInv_val]
  split <;> omega

@[simp] theorem pboxInv_pbox (i : BitIndex) : pboxInv (pbox i) = i := by
  apply Fin.ext
  rw [pboxInv_val, pbox_val]
  omega

@[simp] theorem pbox_pboxInv (j : BitIndex) : pbox (pboxInv j) = j := by
  apply Fin.ext
  rw [pbox_val, pboxInv_val]
  omega

theorem pbox_bijective : Function.Bijective pbox :=
  Function.bijective_iff_has_inverse.mpr ⟨pboxInv, pboxInv_pbox, pbox_pboxInv⟩

/-- `16 * (i % 4) + i / 4 = i` says `i / 4 = 5 * (i % 4)`: one fixed point for each `i % 4`. -/
theorem pbox_eq_self_iff (i : BitIndex) : pbox i = i ↔ i = 0 ∨ i = 21 ∨ i = 42 ∨ i = 63 := by
  simp only [Fin.ext_iff, pbox_val]
  change _ ↔ i.val = 0 ∨ i.val = 21 ∨ i.val = 42 ∨ i.val = 63
  omega

/-- Settles O7: each table is its formula, and the rest is arithmetic on the formulas. -/
theorem pboxTablesAreInverse : Obligations.PboxTablesAreInverse :=
  ⟨fun i => ⟨pbox_val i, pbox_val_mod i, pboxInv_val i, pboxInv_val_mod i⟩,
    fun i => ⟨pboxInv_pbox i, pbox_pboxInv i⟩, pbox_bijective, pbox_eq_self_iff, by decide⟩

/-! ### The permutation layers -/

/-- Input bit `i` goes to output bit `PBox[i]` (42_round_transforms.md R153). -/
theorem permutationLayer_getLsbD_pbox (s : Block) (i : BitIndex) :
    (permutationLayer s).getLsbD (pbox i).val = s.getLsbD i.val :=
  moveBits_getLsbD pbox pbox_injective s i

/-- The inverse layer moves bits by the inverse table (R154). -/
theorem permutationLayerInv_getLsbD_pboxInv (s : Block) (i : BitIndex) :
    (permutationLayerInv s).getLsbD (pboxInv i).val = s.getLsbD i.val :=
  moveBits_getLsbD pboxInv pboxInv_injective s i

/-- The inverse layer takes bit `i` back from bit `PBox[i]` (R154). -/
theorem permutationLayerInv_getLsbD (s : Block) (i : BitIndex) :
    (permutationLayerInv s).getLsbD i.val = s.getLsbD (pbox i).val := by
  simpa using permutationLayerInv_getLsbD_pboxInv s (pbox i)

/-- Both layers leave a fixed point of PBox where it is. -/
theorem permutationLayers_getLsbD_of_fixed (s : Block) {i : BitIndex} (fixed : pbox i = i) :
    (permutationLayer s).getLsbD i.val = s.getLsbD i.val ∧
      (permutationLayerInv s).getLsbD i.val = s.getLsbD i.val := by
  have moved := permutationLayer_getLsbD_pbox s i
  have back := permutationLayerInv_getLsbD s i
  rw [fixed] at moved back
  exact ⟨moved, back⟩

/-- Settles O10: both tables are injective, so each layer's loop puts every bit in its own place. -/
theorem permutationMovesEachBit : Obligations.PermutationMovesEachBit :=
  ⟨fun s i => ⟨permutationLayer_getLsbD_pbox s i, permutationLayerInv_getLsbD_pboxInv s i,
      permutationLayerInv_getLsbD s i⟩,
    fun s i fixed => permutationLayers_getLsbD_of_fixed s ((pbox_eq_self_iff i).mpr fixed),
    by decide +kernel, by decide +kernel⟩

end Sys2Proof.Proofs.Tables
end

section
/-! PROOFS. The key schedules of 41_key_schedule.md: the three steps of a register update bit by bit, the
keys a schedule emits, and INIT, which installs them. -/

namespace Sys2Proof.Proofs.KeySchedule

open Sys2Proof Sys2Proof.Machine Sys2Proof.Laws Sys2Proof.Proofs.CoreState Sys2Proof.Proofs.Encoding

/-! ### The rotation -/

/-- A rotation left by `r` moves bit `b` to bit `(b + r) mod w`. -/
theorem rotateLeft_getLsbD_add_mod {w r : Nat} (k : BitVec w) (hr : r < w) {b : Nat} (hb : b < w) :
    (k.rotateLeft r).getLsbD ((b + r) % w) = k.getLsbD b := by
  rw [BitVec.getLsbD_rotateLeft_of_le hr]
  by_cases wraps : b + r < w
  · rw [Nat.mod_eq_of_lt wraps]
    simp [wraps]
  · have target : (b + r) % w = b + r - w := by
      rw [Nat.mod_eq_sub_mod (by omega), Nat.mod_eq_of_lt (by omega)]
    have source : w - r + (b + r - w) = b := by omega
    simp [target, source, show b + r - w < r by omega]

/-- The concatenation of R122 is a rotation left by 61. -/
theorem rotate80_eq_rotateLeft (k : Key80) : rotate80 k = k.rotateLeft 61 := by
  apply BitVec.eq_of_getLsbD_eq
  intro b hb
  rw [rotate80_getLsbD, BitVec.getLsbD_rotateLeft_of_le (by decide)]
  by_cases low : b < 61
  · simp [low]
  · simp [low, hb, show b - 61 < 19 by omega]

/-- The concatenation of R127 is a rotation left by 61. -/
theorem rotate128_eq_rotateLeft (k : Key128) : rotate128 k = k.rotateLeft 61 := by
  apply BitVec.eq_of_getLsbD_eq
  intro b hb
  rw [rotate128_getLsbD, BitVec.getLsbD_rotateLeft_of_le (by decide)]
  by_cases low : b < 61
  · simp [low]
  · simp [low, hb, show b - 61 < 67 by omega]

/-! ### The substitution -/

theorem substitute80_top (k : Key80) :
    (substitute80 k).extractLsb' 76 4 = sbox (k.extractLsb' 76 4) := BitVec.extractLsb'_append_eq_left

theorem substitute80_below (k : Key80) {b : Nat} (hb : b < 76) :
    (substitute80 k).getLsbD b = k.getLsbD b := by rw [substitute80_getLsbD, if_pos hb]

theorem substitute128_top (k : Key128) :
    (substitute128 k).extractLsb' 124 4 = sbox (k.extractLsb' 124 4) := BitVec.extractLsb'_append_eq_left

theorem substitute128_second (k : Key128) :
    (substitute128 k).extractLsb' 120 4 = sbox (k.extractLsb' 120 4) := by
  apply BitVec.eq_of_getLsbD_eq
  intro b hb
  rw [BitVec.getLsbD_extractLsb', substitute128_getLsbD]
  simp [hb, show 120 + b < 124 by omega]

theorem substitute128_below (k : Key128) {b : Nat} (hb : b < 120) :
    (substitute128 k).getLsbD b = k.getLsbD b := by rw [substitute128_getLsbD, if_pos hb]

/-! ### The salt -/

section FieldXor

variable {w p m : Nat} (k : BitVec w) (v : BitVec m)

/-- A value shifted up to bit `p` and added into a register changes the `m` bits from `p` on. -/
theorem xor_shiftLeft_extractLsb' (fits : p + m ≤ w) :
    (k ^^^ (v.setWidth w <<< p)).extractLsb' p m = k.extractLsb' p m ^^^ v := by
  apply BitVec.eq_of_getLsbD_eq
  intro b hb
  simp [hb, show p + b < w by omega]

/-- A value of `m` bits shifted up to bit `p` and added into a register leaves every bit outside. -/
theorem xor_shiftLeft_getLsbD {b : Nat} (outside : b < p ∨ p + m ≤ b) :
    (k ^^^ (v.setWidth w <<< p)).getLsbD b = k.getLsbD b := by
  obtain below | above := outside
  · simp [below]
  · simp [BitVec.getLsbD_of_ge v (b - p) (by omega)]

end FieldXor

theorem salt80_field (k : Key80) (i : Nat) :
    (salt80 k i).extractLsb' 15 5 = k.extractLsb' 15 5 ^^^ BitVec.ofNat 5 (i % 32) := by
  rw [← salt_eq_ofNat_mod]
  exact xor_shiftLeft_extractLsb' k (salt i) (by decide)

theorem salt128_field (k : Key128) (i : Nat) :
    (salt128 k i).extractLsb' 62 5 = k.extractLsb' 62 5 ^^^ BitVec.ofNat 5 (i % 32) := by
  rw [← salt_eq_ofNat_mod]
  exact xor_shiftLeft_extractLsb' k (salt i) (by decide)

theorem salt80_outside (k : Key80) (i : Nat) {b : Nat} (outside : b < 15 ∨ 19 < b) :
    (salt80 k i).getLsbD b = k.getLsbD b := xor_shiftLeft_getLsbD k (salt i) outside

theorem salt128_outside (k : Key128) (i : Nat) {b : Nat} (outside : b < 62 ∨ 66 < b) :
    (salt128 k i).getLsbD b = k.getLsbD b := xor_shiftLeft_getLsbD k (salt i) outside

/-- Settles O14: each step by its bit lemma. -/
theorem keySchedule80UpdateSteps : Obligations.KeySchedule80UpdateSteps := by
  intro k i
  refine ⟨rotate80_eq_rotateLeft k, fun b hb => ?_, substitute80_top k, fun b => substitute80_below k,
    salt80_field k i, fun b => salt80_outside k i, rfl⟩
  rw [rotate80_eq_rotateLeft]
  exact rotateLeft_getLsbD_add_mod k (by decide) hb

/-- Settles O15: each step by its bit lemma. -/
theorem keySchedule128UpdateSteps : Obligations.KeySchedule128UpdateSteps := by
  intro k i
  refine ⟨rotate128_eq_rotateLeft k, fun b hb => ?_, substitute128_top k, substitute128_second k,
    fun b => substitute128_below k, salt128_field k i, fun b => salt128_outside k i, rfl⟩
  rw [rotate128_eq_rotateLeft]
  exact rotateLeft_getLsbD_add_mod k (by decide) hb

/-! ### The loop -/

section Loop

variable {w : Nat} (emit : BitVec w → RoundKey) (update : BitVec w → Nat → BitVec w)

/-- From counter 1 on, the update after `j` others has the counter `j + 1` (R120, R126). -/
theorem registerFrom_one_succ (k : BitVec w) (j : Nat) :
    registerFrom update k 1 (j + 1) = update (registerFrom update k 1 j) (j + 1) := by
  rw [registerFrom_succ, Nat.add_comm 1 j]

/-- The first keys of a schedule are the schedule of fewer rounds. -/
theorem scheduleFrom_take (k : BitVec w) (i m n : Nat) :
    (scheduleFrom emit update k i n).take m = scheduleFrom emit update k i (min m n) := by
  induction n generalizing k i m with
  | zero => rw [Nat.min_zero]; exact List.take_nil
  | succ n ih =>
    cases m with
    | zero => rw [Nat.zero_min]; rfl
    | succ m => rw [Nat.succ_min_succ, scheduleFrom, scheduleFrom, List.take_succ_cons, ih]

/-- A schedule of `n` rounds depends only on its first `n - 1` updates: what the last update does is
discarded (R135). -/
theorem scheduleFrom_congr {u v : BitVec w → Nat → BitVec w} {i n : Nat}
    (agree : ∀ k c, c + 1 < i + n → u k c = v k c) (k : BitVec w) :
    scheduleFrom emit u k i n = scheduleFrom emit v k i n := by
  induction n generalizing k i with
  | zero => rfl
  | succ n ih =>
    rw [scheduleFrom, scheduleFrom, ih fun k c hc => agree k c (by omega)]
    cases n with
    | zero => rfl
    | succ n => rw [agree k i (by omega)]

/-- R132: the update with counter `i` reaches only the keys from index `i` on. -/
theorem scheduleFrom_take_congr {u v : BitVec w → Nat → BitVec w} {i : Nat}
    (agree : ∀ k c, c < i → u k c = v k c) (k : BitVec w) (n : Nat) :
    (scheduleFrom emit u k 1 n).take i = (scheduleFrom emit v k 1 n).take i := by
  rw [scheduleFrom_take, scheduleFrom_take]
  exact scheduleFrom_congr emit (fun k c hc => agree k c (by omega)) k

end Loop

/-- Settles O16: the registers are those of the schedule's loop. -/
theorem schedulesEmitTheRegisterTops : Obligations.SchedulesEmitTheRegisterTops :=
  ⟨fun key r => ⟨ks80_length key r, registerFrom update80 key 1, rfl, registerFrom_one_succ update80 key,
      fun j => scheduleFrom_getElem? emit80 update80 key 1 r j⟩,
    fun key r => ⟨ks128_length key r, registerFrom update128 key 1, rfl,
      registerFrom_one_succ update128 key,
      fun j => scheduleFrom_getElem? emit128 update128 key 1 r j⟩,
    by decide +kernel, by decide +kernel⟩

/-! ### The counter modulo 32 -/

theorem salt_toNat (i : Nat) : (salt i).toNat = i % 32 := by
  rw [salt_eq_ofNat_mod, BitVec.toNat_ofNat, Nat.mod_mod]

theorem salt_eq_zero {i : Nat} (h : i % 32 = 0) : salt i = 0 := by rw [salt_eq_ofNat_mod, h]; rfl

theorem salt80_eq_self {i : Nat} (h : i % 32 = 0) (k : Key80) : salt80 k i = k := by
  simp [salt80, salt_eq_zero h]

theorem salt128_eq_self {i : Nat} (h : i % 32 = 0) (k : Key128) : salt128 k i = k := by
  simp [salt128, salt_eq_zero h]

/-- Settles O17: the salt as a remainder, and the loop's dependence on its first updates. -/
theorem saltIsTheCounterModulo32 : Obligations.SaltIsTheCounterModulo32 := by
  refine ⟨fun i => ?_, fun i h => ⟨salt80_eq_self h, salt128_eq_self h⟩, fun i h => ?_,
    fun key i n u agree => ⟨scheduleFrom_take_congr emit80 agree key n, fun hi hn => ?_⟩,
    fun key i n u agree => ⟨scheduleFrom_take_congr emit128 agree key n, fun hi hn => ?_⟩,
    fun key m n h => ?_, fun key m n h => ?_⟩
  · rw [salt_toNat]; omega
  · rw [salt_toNat]; omega
  · exact scheduleFrom_congr emit80 (fun k c hc => agree k c (by omega)) key
  · exact scheduleFrom_congr emit128 (fun k c hc => agree k c (by omega)) key
  · rw [ks80, scheduleFrom_take, Nat.min_eq_left h]; rfl
  · rw [ks128, scheduleFrom_take, Nat.min_eq_left h]; rfl

/-! ### INIT -/

/-- R140: the first key is the top of the master key. -/
theorem initKeys_zero_getElem? (len : BitVec 8) (d : DataIn) {r : Nat} (h : 1 ≤ r) :
    (initKeys len d r)[0]? = some (if len = 10 then emit80 (keyOperand80 d)
      else emit128 (keyOperand128 d)) := by
  unfold initKeys
  split
  · exact scheduleFrom_getElem? emit80 update80 _ 1 r 0 h
  · exact scheduleFrom_getElem? emit128 update128 _ 1 r 0 h

section Installed

variable (z : BitVec 1) (len rnd : BitVec 8) (d : DataIn) (s : State)

/-- The store after a successful INIT has MAX_ROUNDS entries (10_state.md R25). -/
theorem finishInit_initKeys_rk_length (legal : rnd.toNat ≤ Config.maxRounds) :
    (finishInit z rnd (rkWriteAll (initKeys len d rnd.toNat) s)).rk.length = Config.maxRounds := by
  rw [finishInit_rkWriteAll_rk _ _ _ _ (initKeys_length ..), List.length_append, initKeys_length,
    unspecifiedKeys_length, Nat.add_sub_cancel' legal]

/-- R134: `RK[j] <- rk[j]` for each emitted key. -/
theorem finishInit_initKeys_rk_getElem? {j : Nat} (hj : j < rnd.toNat) :
    (finishInit z rnd (rkWriteAll (initKeys len d rnd.toNat) s)).rk[j]? =
      (initKeys len d rnd.toNat)[j]? := by
  rw [finishInit_rkWriteAll_rk _ _ _ _ (initKeys_length ..),
    List.getElem?_append_left (by rwa [initKeys_length])]

end Installed

/-- Settles O19: the checks in their order, then what a successful INIT writes, field by field. -/
theorem initChecksThenInstalls : Obligations.InitChecksThenInstalls := by
  refine ⟨fun len rnd rsv s => ⟨fun badLength => ?_, fun ⟨goodLength, badRounds⟩ => ?_,
    fun ⟨goodLength, legal⟩ => ?_⟩, fun s e rst => ⟨resetEdge s, clockEdge_reset rst s, rfl⟩,
    by decide +kernel, by decide +kernel, by decide +kernel⟩
  · exact execInit_raise (initCheck_badLength len rnd badLength) rsv s
  · refine execInit_raise (initCheck_badRounds len rnd goodLength fun legal => ?_) rsv s
    obtain rfl | above := badRounds
    · exact absurd legal.1 (by decide)
    · omega
  · have passed := (initCheck_eq_none_iff_bounds len rnd).2 ⟨goodLength, legal⟩
    have entry (j : Nat) (hj : j < rnd.toNat) :=
      finishInit_initKeys_rk_getElem? (initKsize len) len rnd s.din s hj
    refine ⟨finishInit (initKsize len) rnd (rkWriteAll (initKeys len s.din rnd.toNat) s), ?_, rfl, rfl,
      rfl, finishInit_initKeys_rk_length _ len rnd s.din s legal.2, entry, ?_, rfl, rfl, rfl, rfl, rfl,
      rfl, rfl, rfl, rfl⟩
    · rw [exec, execInit, passed]
    · rw [entry 0 legal.1, initKeys_zero_getElem? len s.din legal.1]
      rfl

end Sys2Proof.Proofs.KeySchedule
end

section
/-! PROOFS. How many steps the reference sequencer takes (70_reset_and_hazards.md R251): a count of the
steps that are left, which every step lowers by one. -/

namespace Sys2Proof.Proofs.KeySchedule

open Sys2Proof Sys2Proof.Machine Sys2Proof.Laws Sys2Proof.Proofs.CoreState

variable {s : State}

/-- The reference figure of R251 for the latched command, the decode step included. -/
def referenceLatency (s : State) : Nat :=
  if cmdOp s.cmd = 1 ∧ initCheck (cmdLen s.cmd) (cmdRnd s.cmd) = none then (cmdRnd s.cmd).toNat + 1
  else if (cmdOp s.cmd = 2 ∨ cmdOp s.cmd = 3) ∧ cipherCheck s.keyValid (cmdLen s.cmd) = none then
    s.rounds.toNat + 1
  else 1

/-- The steps left in the sub-state a core is in, by its counter RC (41_key_schedule.md R139,
43_block_cipher.md R185). -/
def stepsLeft (s : State) : Nat :=
  match s.fsm with
  | .idle | .resp => 0
  | .decode => referenceLatency s
  | .ks => (cmdRnd s.cmd).toNat - s.rc.toNat + 1
  | .enc | .dec => s.rounds.toNat - s.rc.toNat

theorem stepsLeft_decode (hf : s.fsm = .decode) : stepsLeft s = referenceLatency s := by
  rw [stepsLeft, hf]

theorem stepsLeft_ks (hf : s.fsm = .ks) :
    stepsLeft s = (cmdRnd s.cmd).toNat - s.rc.toNat + 1 := by
  rw [stepsLeft, hf]

theorem stepsLeft_cipher (hf : s.fsm = .enc ∨ s.fsm = .dec) :
    stepsLeft s = s.rounds.toNat - s.rc.toNat := by
  obtain hf | hf := hf <;> rw [stepsLeft, hf]

theorem stepsLeft_enterKs (valid : ValidInit s) (len : BitVec 8) :
    stepsLeft (enterKs len s) = (cmdRnd s.cmd).toNat := by
  rw [stepsLeft_ks rfl]
  exact Nat.sub_add_cancel valid.rounds_legal.1

theorem stepsLeft_enterCipher {f : Fsm} (hf : f = .enc ∨ f = .dec) :
    stepsLeft (enterCipher f s) = s.rounds.toNat := stepsLeft_cipher (s := enterCipher f s) hf

theorem referenceLatency_init (valid : ValidInit s) :
    referenceLatency s = (cmdRnd s.cmd).toNat + 1 := if_pos valid

theorem referenceLatency_cipher (op : cmdOp s.cmd = 2 ∨ cmdOp s.cmd = 3)
    (checked : cipherCheck s.keyValid (cmdLen s.cmd) = none) :
    referenceLatency s = s.rounds.toNat + 1 := by
  have notInit : cmdOp s.cmd ≠ 1 := by obtain op | op := op <;> rw [op] <;> decide
  rw [referenceLatency, if_neg fun h => notInit h.1, if_pos ⟨op, checked⟩]

/-- A command that fails a check or has no sub-state is answered in its decode step. -/
theorem referenceLatency_atOnce (notInit : ¬ ValidInit s) (notCipher :
    cmdOp s.cmd = 2 ∨ cmdOp s.cmd = 3 → cipherCheck s.keyValid (cmdLen s.cmd) ≠ none) :
    referenceLatency s = 1 := by
  rw [referenceLatency, if_neg (show ¬ (_ ∧ _) from notInit), if_neg fun h => notCipher h.1 h.2]

/-- From `s` to `t` the command ends, with its last step, or one step fewer is left. -/
def CountsDown (s t : State) : Prop :=
  (phase t = .resp ∧ stepsLeft s = 1) ∨ (phase t = .busy ∧ stepsLeft s = stepsLeft t + 1)

theorem countsDown_enterKs (hf : s.fsm = .decode) (valid : ValidInit s) (len : BitVec 8) :
    CountsDown s (enterKs len s) :=
  .inr ⟨rfl, by rw [stepsLeft_decode hf, referenceLatency_init valid, stepsLeft_enterKs valid]⟩

theorem countsDown_enterCipher (hf : s.fsm = .decode) (op : cmdOp s.cmd = 2 ∨ cmdOp s.cmd = 3)
    (checked : cipherCheck s.keyValid (cmdLen s.cmd) = none) {f : Fsm} (sub : f = .enc ∨ f = .dec) :
    CountsDown s (enterCipher f s) :=
  .inr ⟨(phase_eq_busy_iff _).2 (.inr (.inr sub)), by
    rw [stepsLeft_decode hf, referenceLatency_cipher op checked, stepsLeft_enterCipher sub]⟩

theorem countsDown_atOnce {t : State} (hf : s.fsm = .decode) (resp : phase t = .resp)
    (notInit : ¬ ValidInit s) (notCipher :
      cmdOp s.cmd = 2 ∨ cmdOp s.cmd = 3 → cipherCheck s.keyValid (cmdLen s.cmd) ≠ none) :
    CountsDown s t :=
  .inl ⟨resp, (stepsLeft_decode hf).trans (referenceLatency_atOnce notInit notCipher)⟩

/-- The decode step ends a command without a sub-state, and enters the sub-state of any other. -/
theorem seqDecode_countsDown (hf : s.fsm = .decode) : CountsDown s (seqDecode s) := by
  unfold seqDecode
  obtain ⟨op, h⟩ | ⟨op, h⟩ | ⟨op, h⟩ | ⟨op, h⟩ | ⟨⟨not1, not2, not3, -⟩, h⟩ := decodeWord_cases s.cmd <;>
    rw [h]
  · cases checked : initCheck (cmdLen s.cmd) (cmdRnd s.cmd) <;> simp only [checked]
    case none => exact countsDown_enterKs hf ⟨op, checked⟩ _
    case some => exact countsDown_atOnce hf rfl (by simp [ValidInit, checked]) (by simp [op])
  · cases checked : cipherCheck s.keyValid (cmdLen s.cmd) <;> simp only [checked]
    case none => exact countsDown_enterCipher hf (.inl op) checked (.inl rfl)
    case some => exact countsDown_atOnce hf rfl (by simp [ValidInit, op]) (by simp [checked])
  · cases checked : cipherCheck s.keyValid (cmdLen s.cmd) <;> simp only [checked]
    case none => exact countsDown_enterCipher hf (.inr op) checked (.inr rfl)
    case some => exact countsDown_atOnce hf rfl (by simp [ValidInit, op]) (by simp [checked])
  · exact countsDown_atOnce hf rfl (by simp [ValidInit, op]) (by simp [op])
  · exact countsDown_atOnce hf rfl (fun valid => not1 valid.1)
      fun op => absurd op (not_or.2 ⟨not2, not3⟩)

/-- A `KS` step is the last when RC is the round count, and counts RC up otherwise. -/
theorem seqKs_countsDown (hf : s.fsm = .ks) (counter : s.rc.toNat ≤ (cmdRnd s.cmd).toNat) :
    CountsDown s (seqKs s) := by
  rw [CountsDown, stepsLeft_ks hf]
  unfold seqKs
  split
  case isTrue last => exact .inl ⟨rfl, by rw [last, Nat.sub_self]⟩
  case isFalse notLast =>
    have more : s.rc.toNat < (cmdRnd s.cmd).toNat :=
      Nat.lt_of_le_of_ne counter fun h => notLast (BitVec.eq_of_toNat_eq h)
    rw [ksIteration_eq]
    refine .inr ⟨(phase_eq_busy_iff _).2 (.inr (.inl hf)), ?_⟩
    simp only [stepsLeft_ks, hf, toNat_add_one more]
    omega

/-- An `ENC` or `DEC` step is the last when RC is ROUNDS-1, and counts RC up otherwise. -/
theorem seqCipher_countsDown (round : Block → RoundKey → Block) (i j : Nat)
    (hf : s.fsm = .enc ∨ s.fsm = .dec) (counter : s.rc.toNat < s.rounds.toNat) :
    CountsDown s (seqCipher round i j s) := by
  rw [CountsDown, stepsLeft_cipher hf]
  obtain more | last : s.rc.toNat + 1 < s.rounds.toNat ∨ s.rounds.toNat = s.rc.toNat + 1 := by omega
  · rw [seqCipher_more more]
    refine .inr ⟨(phase_eq_busy_iff _).2 (.inr (.inr hf)), ?_⟩
    simp only [stepsLeft_cipher, hf, toNat_add_one counter]
    omega
  · rw [seqCipher_last last]
    exact .inl ⟨rfl, by omega⟩

theorem sequencerStep_countsDown (inv : CoreInv s) (busy : phase s = .busy) :
    CountsDown s (sequencerStep s) := by
  unfold sequencerStep
  obtain hf | hf | hf | hf := (phase_eq_busy_iff s).1 busy <;> simp only [hf]
  · exact seqDecode_countsDown hf
  · exact seqKs_countsDown hf (inv.ks hf).counter.2
  · exact seqCipher_countsDown _ _ _ (.inl hf) (inv.enc hf).counter
  · exact seqCipher_countsDown _ _ _ (.inr hf) (inv.dec hf).counter

/-- A busy core is busy for exactly the steps left, and then answers. -/
theorem sequencerStep_iterate_stepsLeft {n : Nat} (inv : CoreInv s) (busy : phase s = .busy)
    (left : stepsLeft s = n) :
    phase (sequencerStep^[n] s) = .resp ∧ ∀ k, k < n → phase (sequencerStep^[k] s) = .busy := by
  induction n generalizing s with
  | zero => obtain ⟨-, h⟩ | ⟨-, h⟩ := sequencerStep_countsDown inv busy <;> omega
  | succ n ih =>
    have after : phase (sequencerStep^[n] (sequencerStep s)) = .resp ∧
        ∀ k, k < n → phase (sequencerStep^[k] (sequencerStep s)) = .busy := by
      obtain ⟨resp, last⟩ | ⟨more, next⟩ := sequencerStep_countsDown inv busy
      · obtain rfl : n = 0 := by omega
        exact ⟨resp, fun k hk => absurd hk (Nat.not_lt_zero k)⟩
      · exact ih ((sequencerStep_seqStep inv busy).keeps_inv inv) more (by omega)
    refine ⟨after.1, fun k hk => ?_⟩
    cases k with
    | zero => exact busy
    | succ k => exact after.2 k (by omega)

/-- Settles O52: from the decode step on, the steps left are the reference figure. -/
theorem sequencerTakesTheReferenceLatency : Obligations.SequencerTakesTheReferenceLatency := by
  intro s inv hf
  have busy : phase s = .busy := (phase_eq_busy_iff s).2 (.inl hf)
  exact ⟨referenceLatency s, rfl, sequencerStep_iterate_stepsLeft inv busy (stepsLeft_decode hf)⟩

end Sys2Proof.Proofs.KeySchedule
end

section
/-! PROOFS. The three layers of a round and the rounds built of them (42_round_transforms.md R150 to R157):
the layers nibble by nibble and bit by bit, and what undoes each. -/

namespace Sys2Proof.Proofs.RoundTransforms

open Sys2Proof Sys2Proof.Machine Sys2Proof.Laws Sys2Proof.Proofs.Tables

/-! ### The substitution layers -/

theorem nibble_substitutionLayer (s : Block) {k : Nat} (hk : k < 16) :
    nibble (substitutionLayer s) k = sbox (nibble s k) :=
  nibble_mapNibbles sbox s k hk

theorem nibble_substitutionLayerInv (s : Block) {k : Nat} (hk : k < 16) :
    nibble (substitutionLayerInv s) k = sboxInv (nibble s k) :=
  nibble_mapNibbles sboxInv s k hk

/-- The example of R150. -/
theorem substitutionLayer_zero : substitutionLayer 0 = 0xCCCCCCCCCCCCCCCC := by decide +kernel

/-- Nibble by nibble, `Sbox_inv` undoes Sbox. -/
@[simp] theorem substitutionLayerInv_substitutionLayer (s : Block) :
    substitutionLayerInv (substitutionLayer s) = s :=
  block_ext_nibble fun k hk => by
    rw [nibble_substitutionLayerInv _ hk, nibble_substitutionLayer _ hk, sboxInv_sbox]

/-- Nibble by nibble, Sbox undoes `Sbox_inv`. -/
@[simp] theorem substitutionLayer_substitutionLayerInv (s : Block) :
    substitutionLayer (substitutionLayerInv s) = s :=
  block_ext_nibble fun k hk => by
    rw [nibble_substitutionLayer _ hk, nibble_substitutionLayerInv _ hk, sbox_sboxInv]

/-- A linear map sends `0 = 0 ^ 0` to 0; the substitution layer does not. -/
theorem substitutionLayer_not_linear :
    ∃ a b : Block, substitutionLayer (a ^^^ b) ≠ substitutionLayer a ^^^ substitutionLayer b := by
  refine ⟨0, 0, ?_⟩
  rw [show (0 : Block) ^^^ 0 = 0 from rfl, substitutionLayer_zero]
  decide

/-- Settles O8: the layers apply their table to each nibble, and the second example is the first undone. -/
theorem substitutionActsOnEachNibble : Obligations.SubstitutionActsOnEachNibble :=
  ⟨fun s _ hk => ⟨nibble_substitutionLayer s hk, nibble_substitutionLayerInv s hk⟩,
    substitutionLayer_zero,
    substitutionLayer_zero ▸ substitutionLayerInv_substitutionLayer 0,
    by decide +kernel⟩

/-- Settles O9: inverse nibble by nibble, and the image of 0 refutes linearity. -/
theorem substitutionLayersAreInverse : Obligations.SubstitutionLayersAreInverse :=
  ⟨fun s => ⟨substitutionLayerInv_substitutionLayer s, substitutionLayer_substitutionLayerInv s⟩,
    substitutionLayer_zero, substitutionLayer_not_linear⟩

/-! ### The permutation layers -/

/-- Output bit `j` comes from input bit `PBox_inv[j]`. -/
theorem permutationLayer_getLsbD (s : Block) (j : BitIndex) :
    (permutationLayer s).getLsbD j.val = s.getLsbD (pboxInv j).val := by
  simpa using permutationLayer_getLsbD_pbox s (pboxInv j)

/-- Two blocks with the same 64 bits are the same block. -/
theorem block_ext_bit {s t : Block} (h : ∀ i : BitIndex, s.getLsbD i.val = t.getLsbD i.val) : s = t :=
  BitVec.eq_of_getLsbD_eq fun i hi => h ⟨i, hi⟩

@[simp] theorem permutationLayerInv_permutationLayer (s : Block) :
    permutationLayerInv (permutationLayer s) = s :=
  block_ext_bit fun i => by rw [permutationLayerInv_getLsbD, permutationLayer_getLsbD_pbox]

@[simp] theorem permutationLayer_permutationLayerInv (s : Block) :
    permutationLayer (permutationLayerInv s) = s :=
  block_ext_bit fun j => by rw [permutationLayer_getLsbD, permutationLayerInv_getLsbD_pboxInv]

/-- Wiring commutes with a bitwise operation. -/
theorem permutationLayer_xor (a b : Block) :
    permutationLayer (a ^^^ b) = permutationLayer a ^^^ permutationLayer b :=
  block_ext_bit fun j => by simp only [BitVec.getLsbD_xor, permutationLayer_getLsbD]

/-- PBox only reorders the bit positions, so counting the ones of the output along PBox counts those of
the input. -/
theorem permutationLayer_ones (s : Block) :
    (List.finRange 64).countP (fun i => (permutationLayer s).getLsbD i.val) =
      (List.finRange 64).countP (fun i => s.getLsbD i.val) := by
  have reorder : ((List.finRange 64).map pbox).Perm (List.finRange 64) :=
    Equiv.Perm.map_finRange_perm (.ofBijective pbox pbox_bijective)
  rw [← reorder.countP_eq, List.countP_map]
  exact List.countP_congr fun i _ => by rw [Function.comp_apply, permutationLayer_getLsbD_pbox]

theorem permutationLayer_zero : permutationLayer 0 = 0 := by
  simpa using permutationLayer_xor 0 0

/-- Every bit of the output is a bit of the input, hence 1. -/
theorem permutationLayer_allOnes : permutationLayer (BitVec.allOnes 64) = BitVec.allOnes 64 :=
  block_ext_bit fun j => by
    rw [permutationLayer_getLsbD, BitVec.getLsbD_allOnes, BitVec.getLsbD_allOnes,
      decide_eq_true (pboxInv j).isLt, decide_eq_true j.isLt]

/-- Settles O11: PBox is a bijection of bit positions, and each clause is read off bit by bit. -/
theorem permutationIsLinearAndInvertible : Obligations.PermutationIsLinearAndInvertible :=
  ⟨fun s => ⟨permutationLayerInv_permutationLayer s, permutationLayer_permutationLayerInv s⟩,
    permutationLayer_xor, permutationLayer_ones, permutationLayer_zero, permutationLayer_allOnes⟩

/-! ### The round-key adder -/

@[simp] theorem addRoundKey_zero (s : Block) : addRoundKey s 0 = s := BitVec.xor_zero

@[simp] theorem addRoundKey_addRoundKey (s : Block) (k : RoundKey) :
    addRoundKey (addRoundKey s k) k = s := by
  rw [addRoundKey, addRoundKey, BitVec.xor_assoc, BitVec.xor_self, BitVec.xor_zero]

@[simp] theorem addRoundKey_self (s : Block) : addRoundKey s s = 0 := BitVec.xor_self

/-- Settles O12: the adder is XOR, and its corner cases are the laws of XOR. -/
theorem addRoundKeyIsXor : Obligations.AddRoundKeyIsXor :=
  ⟨fun s k => ⟨rfl, addRoundKey_zero s, addRoundKey_addRoundKey s k, addRoundKey_self s⟩,
    addRoundKey_self _⟩

/-! ### The rounds -/

/-- The three layers undone in the reverse order undo an encryption round. -/
theorem encRound_undone (s : Block) (k : RoundKey) :
    addRoundKey (substitutionLayerInv (permutationLayerInv (encRound s k))) k = s := by
  simp [encRound]

/-- An encryption round undoes the three inverse layers. -/
theorem encRound_undoes (s : Block) (k : RoundKey) :
    encRound (addRoundKey (substitutionLayerInv (permutationLayerInv s)) k) k = s := by
  simp [encRound]

/-- The decryption round adds its key before the inverse layers, not after them: under key 1 the block 1
becomes 0 at the adder of the encryption round and comes back as 7. -/
theorem decRound_encRound_one : decRound (encRound 1 1) 1 = 7 := by decide +kernel

/-- Settles O13: the inverse layers in reverse order undo the round, and `DecRound` has another order. -/
theorem roundsComposeTheLayers : Obligations.RoundsComposeTheLayers :=
  ⟨fun s k => ⟨rfl, rfl, encRound_undone s k, encRound_undoes s k⟩,
    1, 1, by rw [decRound_encRound_one]; decide⟩

end Sys2Proof.Proofs.RoundTransforms
end

section
/-! PROOFS. The cipher as a function of a block and its round keys (43_block_cipher.md R170 to R176,
R183): the states of the loop, one round retraced by the other direction's round, and the round trip. -/

namespace Sys2Proof.Proofs.BlockCipher

open Sys2Proof Sys2Proof.Machine Sys2Proof.Laws Sys2Proof.Proofs.RoundTransforms

variable {round back : Block → RoundKey → Block} {b c p : Block} {key : Nat → RoundKey}
  {rk : List RoundKey} {r : Nat}

/-! ### The loop, state by state -/

/-- R172, R175: over one key neither direction runs a round. -/
theorem keyedLoop_singleton (round : Block → RoundKey → Block) (b : Block) (k : RoundKey) :
    keyedLoop round b [k] = b ^^^ k := rfl

/-- Settles O25: a list of one key is its own reverse, and the zero key's schedule starts with 0. -/
theorem oneRoundIsOneXor : Obligations.OneRoundIsOneXor := by
  refine ⟨fun b k => ⟨keyedLoop_singleton encRound b k, keyedLoop_singleton decRound b k⟩, ?_⟩
  have zeroKey : ks80 0 1 = [0] := rfl
  rw [encryptBlock, zeroKey, keyedLoop_singleton]
  exact BitVec.xor_self

/-- The state of the loop after `n` rounds from `b`, the key of round `i` being `key i`. -/
def loopState (round : Block → RoundKey → Block) (key : Nat → RoundKey) (b : Block) : Nat → Block
  | 0 => b
  | n + 1 => round (loopState round key b n) (key n)

/-- States that obey the recurrence of the rounds are those the loop runs through. -/
theorem foldl_round_eq_state {st : Nat → Block} (n : Nat)
    (rounds : ∀ i, i < n → st (i + 1) = round (st i) (key i)) :
    ((List.range n).map key).foldl round (st 0) = st n := by
  induction n with
  | zero => rfl
  | succ n ih =>
    rw [List.range_succ, List.map_append, List.foldl_append,
      ih fun i hi => rounds i (Nat.lt_succ_of_lt hi), rounds n n.lt_succ_self]
    rfl

/-- R170, R173: after the rounds under every key but the last, the last key is added. -/
theorem keyedLoop_eq_last_state {st : Nat → Block} (hr : 1 ≤ r) (start : st 0 = b)
    (rounds : ∀ i, i + 1 < r → st (i + 1) = round (st i) (key i)) :
    keyedLoop round b ((List.range r).map key) = st (r - 1) ^^^ key (r - 1) := by
  obtain ⟨n, rfl⟩ := Nat.exists_eq_add_of_le' hr
  rw [← start, List.range_succ, List.map_append, List.map_singleton, keyedLoop_concat,
    foldl_round_eq_state n fun i hi => rounds i (Nat.succ_lt_succ hi), Nat.add_sub_cancel, addRoundKey]

theorem keyedLoop_eq_loopState (hr : 1 ≤ r) : keyedLoop round b ((List.range r).map key) =
    loopState round key b (r - 1) ^^^ key (r - 1) :=
  keyedLoop_eq_last_state (st := loopState round key b) hr rfl fun _ _ => rfl

/-- R182: the keys in descending order, by index. -/
theorem reverse_map_range (key : Nat → RoundKey) (r : Nat) :
    ((List.range r).map key).reverse = (List.range r).map fun i => key (r - 1 - i) :=
  List.ext_getElem (by simp) fun i _ _ => by simp

/-- Settles O26: the states of each loop from the block, under the keys in the order it reads them. -/
theorem cipherLoopsReadKeysInOrder : Obligations.CipherLoopsReadKeysInOrder := by
  intro b key r hr
  refine ⟨⟨loopState encRound key b, rfl, fun _ _ => rfl, keyedLoop_eq_loopState hr⟩,
    loopState decRound (fun i => key (r - 1 - i)) b, rfl, fun _ _ => rfl, ?_⟩
  rw [decryptBlock, reverse_map_range, keyedLoop_eq_loopState hr, Nat.sub_self]

/-! ### One direction retraces the other -/

/-- R176: a round of `back`, given what a round of `round` left with the next key already added, returns
to where that round started, its key added. -/
def Retraces (back round : Block → RoundKey → Block) : Prop :=
  ∀ s k k', back (addRoundKey (round s k) k') k' = addRoundKey s k

theorem decRound_retraces : Retraces decRound encRound := fun s k k' => by simp [decRound, encRound]

theorem encRound_retraces : Retraces encRound decRound := fun s k k' => by simp [decRound, encRound]

/-- Settles O27: both loops meet at the last key, and each round of Decrypt goes one state back. -/
theorem decryptRetracesEncrypt : Obligations.DecryptRetracesEncrypt := by
  intro b key r st dt hr start encRounds cipherText decRounds i hi
  induction i with
  | zero =>
    rw [cipherText]
    exact keyedLoop_eq_last_state hr start encRounds
  | succ i ih =>
    have earlier : r - 1 - i = r - 1 - (i + 1) + 1 := by omega
    rw [decRounds i hi, ih (by omega), earlier, encRounds _ (by omega)]
    exact decRound_retraces _ _ _

/-- From the state before the last key addition, the keys in descending order lead back to the block. -/
theorem keyedLoop_reverse_foldl (retraces : Retraces back round) (b : Block) (k : RoundKey)
    (ks : List RoundKey) :
    keyedLoop back (addRoundKey (ks.foldl round b) k) (k :: ks.reverse) = b := by
  induction ks using List.reverseRecOn generalizing k with
  | nil => exact addRoundKey_addRoundKey b k
  | append_singleton ks k' ih =>
    calc keyedLoop back (addRoundKey ((ks ++ [k']).foldl round b) k) (k :: (ks ++ [k']).reverse)
        = keyedLoop back (back (addRoundKey (round (ks.foldl round b) k') k) k) (k' :: ks.reverse) := by
          simp [keyedLoop]
      _ = keyedLoop back (addRoundKey (ks.foldl round b) k') (k' :: ks.reverse) := by rw [retraces]
      _ = b := ih k'

/-- R176 for any pair of rounds of which one retraces the other. -/
theorem keyedLoop_reverse_keyedLoop (retraces : Retraces back round) (b : Block) (nonempty : rk ≠ []) :
    keyedLoop back (keyedLoop round b rk) rk.reverse = b := by
  obtain rfl | ⟨ks, k, rfl⟩ := List.eq_nil_or_concat' rk
  · exact absurd rfl nonempty
  · rw [keyedLoop_concat, List.reverse_append]
    exact keyedLoop_reverse_foldl retraces b k ks

theorem decryptBlock_encryptBlock (nonempty : rk ≠ []) (b : Block) :
    decryptBlock (encryptBlock b rk) rk = b :=
  keyedLoop_reverse_keyedLoop decRound_retraces b nonempty

theorem encryptBlock_decryptBlock (nonempty : rk ≠ []) (c : Block) :
    encryptBlock (decryptBlock c rk) rk = c := by
  have trip := keyedLoop_reverse_keyedLoop encRound_retraces c (List.reverse_ne_nil_iff.2 nonempty)
  rwa [List.reverse_reverse] at trip

/-- R174: the decryption of a block is the one block that encrypts to it. -/
theorem encryptBlock_eq_iff (nonempty : rk ≠ []) : encryptBlock p rk = c ↔ p = decryptBlock c rk := by
  constructor
  · rintro rfl
    exact (decryptBlock_encryptBlock nonempty p).symm
  · rintro rfl
    exact encryptBlock_decryptBlock nonempty c

theorem encryptBlock_bijective (nonempty : rk ≠ []) : Function.Bijective fun b => encryptBlock b rk :=
  Function.bijective_iff_has_inverse.2 ⟨fun c => decryptBlock c rk,
    decryptBlock_encryptBlock nonempty, encryptBlock_decryptBlock nonempty⟩

/-- Settles O28: each direction retraces the other, so encryption has a two-sided inverse. -/
theorem decryptUndoesEncrypt : Obligations.DecryptUndoesEncrypt := by
  intro rk nonempty
  refine ⟨fun b => ⟨decryptBlock_encryptBlock nonempty b, encryptBlock_decryptBlock nonempty b⟩,
    encryptBlock_bijective nonempty, ?_⟩
  rintro s rfl b
  exact decryptBlock_encryptBlock nonempty b

end Sys2Proof.Proofs.BlockCipher
end

section
/-! PROOFS. ENCRYPT, DECRYPT and BLOCK_SIZE on the machine (43_block_cipher.md R171, R174, R176, R177,
R181): the checks, the answers, and that no step of a core that was reset stops. -/

namespace Sys2Proof.Proofs.BlockCipher

open Sys2Proof Sys2Proof.Machine Sys2Proof.Laws Sys2Proof.Proofs.CoreState Sys2Proof.Proofs.Memory
  Sys2Proof.Proofs.Encoding

variable {s : State}

/-! ### What ENCRYPT and DECRYPT share -/

theorem cipherCommand_noKey (cipher : Block → List RoundKey → Block) (len : BitVec 8)
    (noKey : s.keyValid = false) : cipherCommand cipher len s = .next (raise .noKey s) :=
  cipherCommand_raise cipher (by rw [noKey, cipherCheck_noKey])

theorem cipherCommand_badLength (cipher : Block → List RoundKey → Block) {len : BitVec 8}
    (valid : s.keyValid = true) (badLength : len ≠ 8) :
    cipherCommand cipher len s = .next (raise (.invalidBlockLength len) s) :=
  cipherCommand_raise cipher (by rw [valid, cipherCheck_badLength len badLength])

theorem instanceKeys_of_one_round (one : s.rounds = 1) : instanceKeys s = [rkRead s 0] := by
  rw [instanceKeys, one]
  rfl

theorem instanceKeys_ne_nil (atLeastOne : 1 ≤ s.rounds.toNat) : instanceKeys s ≠ [] := by
  rw [← List.length_pos_iff, instanceKeys_length]
  exact atLeastOne

/-! ### Known answers -/

/-- T-KAT-1. -/
theorem encryptBlock_zero_ks80_zero : encryptBlock 0 (ks80 0 32) = 0x5579C1387B228445 := by
  decide +kernel

/-- T-KAT-1 undone by the round trip. -/
theorem decryptBlock_ks80_zero : decryptBlock 0x5579C1387B228445 (ks80 0 32) = 0 := by
  have keys : ks80 0 32 ≠ [] := List.ne_nil_of_length_eq_add_one (ks80_length 0 32)
  rw [← encryptBlock_zero_ks80_zero, decryptBlock_encryptBlock keys]

/-! ### The commands -/

/-- Settles O20: the two errors in their order, then the answer of the successful command. -/
theorem encryptChecksThenAnswers : Obligations.EncryptChecksThenAnswers := by
  refine ⟨fun len rnd rsv s => ⟨cipherCommand_noKey encryptBlock len,
    fun ⟨valid, badLength⟩ => cipherCommand_badLength encryptBlock valid badLength, ?_⟩,
    encryptBlock_zero_ks80_zero⟩
  rintro ⟨valid, rfl⟩
  refine ⟨_, cipherCommand_ok encryptBlock valid, rfl, rfl, fun one => ?_, rfl, rfl, rfl, rfl, rfl, rfl,
    rfl, rfl, rfl, rfl, rfl⟩
  rw [finishCipher_rspData, instanceKeys_of_one_round one]
  rfl

/-- Settles O21: as ENCRYPT, with the answer characterised as the block that encrypts to the operand. -/
theorem decryptChecksThenAnswers : Obligations.DecryptChecksThenAnswers := by
  refine ⟨fun len rnd rsv s => ⟨cipherCommand_noKey decryptBlock len,
    fun ⟨valid, badLength⟩ => cipherCommand_badLength decryptBlock valid badLength, ?_⟩,
    decryptBlock_ks80_zero⟩
  rintro ⟨valid, rfl⟩
  refine ⟨_, cipherCommand_ok decryptBlock valid, rfl, rfl, fun one => ?_, fun atLeastOne p => ?_, rfl,
    rfl, rfl, rfl, rfl, rfl, rfl, rfl, rfl, rfl, rfl⟩
  · rw [finishCipher_rspData, instanceKeys_of_one_round one]
    rfl
  · exact encryptBlock_eq_iff (instanceKeys_ne_nil atLeastOne)

/-- R176 for a state that kept the instance, whatever its step counter reads: DECRYPT of an encrypted
block answers the block. -/
theorem decrypt_encrypted_block {u : State} {b : Block} (inv : CoreInv s) (valid : s.keyValid = true)
    (kept : KeepsInstance s u) (operand : blockOperand u.din = encryptBlock b (instanceKeys s)) :
    cipherCommand decryptBlock 8 u = .next (finishCipher b u) := by
  have nonempty := instanceKeys_ne_nil (inv.roundsLegal valid).1
  rw [cipherCommand_ok decryptBlock (kept.keyValid.trans valid), operand,
    kept.instanceKeys_eq inv valid, decryptBlock_encryptBlock nonempty]

/-- Settles O29: the edges between the two commands write nothing of the instance. -/
theorem decryptCommandUndoesEncryptCommand : Obligations.DecryptCommandUndoesEncryptCommand :=
  fun _ _ _ _ _ _ _ _ inv valid => ⟨_, cipherCommand_ok encryptBlock valid, rfl, fun operand =>
    ⟨_, decrypt_encrypted_block inv valid ⟨rfl, rfl, rfl, rfl⟩ operand, rfl, rfl⟩⟩

/-- Settles O22: the response is all that the arm writes. -/
theorem blockSizeAnswersEight : Obligations.BlockSizeAnswersEight :=
  ⟨fun _ _ _ _ => rfl, decodeWord_blockSize rfl⟩

/-! ### No step stops -/

/-- The only step that stops is one before the first reset: a latched command always completes. -/
theorem safeStep_of_resetApplied (reset : s.resetApplied = true) : SafeStep s := by
  obtain ⟨-, next⟩ | ⟨-, ⟨noReset, -⟩ | ⟨-, -, -, next⟩ | ⟨-, -, -, next⟩ | ⟨-, -, -, next⟩ |
    ⟨-, -, -, next⟩ | ⟨-, -, -, runs⟩ | ⟨-, -, -, next⟩ | ⟨-, -, -, next⟩⟩ := step_cases s
  case inr.inl => exact nomatch reset.symm.trans noReset
  case inr.inr.inr.inr.inr.inr.inl =>
    obtain ⟨t, ends, -⟩ := runLatched_completes (advance s)
    exact ⟨t, runs.trans ends⟩
  all_goals exact ⟨_, next⟩

/-- Settles O44: reset was applied in every state that meets the invariant, which every step keeps. -/
theorem noStepStopsAfterReset : Obligations.NoStepStopsAfterReset := fun s inv =>
  ⟨safeStep_of_resetApplied inv.resetApplied,
    fun t h => (everyStepKeepsTheInvariant s t inv h).resetApplied⟩

end Sys2Proof.Proofs.BlockCipher
end


section

/-! PROOFS. The status a latched command completes with (60_exceptions.md R200). -/

namespace Sys2Proof.Proofs.Exceptions

open Sys2Proof Sys2Proof.Machine Sys2Proof.Laws Sys2Proof.Proofs.CoreState

/-- Settles O50: a check's error and each of the four results end in RESP with a code of the table,
which is what `Completes` says of a command's end. -/
theorem everyCommandAnswersWithALegalStatus : Obligations.EveryCommandAnswersWithALegalStatus := by
  intro s
  obtain ⟨t, runs, completes⟩ := runLatched_completes s
  exact ⟨t, runs, completes.phase_eq, completes.statusLegal⟩

end Sys2Proof.Proofs.Exceptions
end

section

/-! PROOFS. The reset edge, the core before its first reset, and the latency of a command
(70_reset_and_hazards.md R230 to R234, R250). -/

namespace Sys2Proof.Proofs.Reset

open Sys2Proof Sys2Proof.Machine Sys2Proof.Laws Sys2Proof.Proofs.CoreState Sys2Proof.Proofs.Encoding

variable {s : State}

/-! ### A reset edge, and an edge before the first one -/

/-- R232: what the host drives on `rsp_ready` does not matter at a reset edge. -/
theorem responseTaken_reset (reset : (nextEdge s).rst = true) : responseTaken s = none :=
  if_neg fun ⟨noReset, _⟩ => nomatch reset.symm.trans noReset

theorem clockEdge_beforeFirstReset {e : Edge} (noReset : e.rst = false)
    (notYet : s.resetApplied = false) : clockEdge e s = .refused .beforeFirstReset := by
  simp [clockEdge, noReset, notYet]

/-- Settles O36: of the edge's inputs, a reset edge reads `rst` alone. -/
theorem resetWinsOverEverything : Obligations.ResetWinsOverEverything :=
  ⟨fun s _ reset => ⟨resetEdge s, clockEdge_reset reset s, rfl, rfl, rfl, rfl, rfl, rfl, rfl,
    clockEdge_reset rfl s⟩, fun _ => responseTaken_reset⟩

/-- Settles O38: before the first reset an edge is refused unless it is that reset. -/
theorem nothingRunsBeforeTheFirstReset : Obligations.NothingRunsBeforeTheFirstReset :=
  fun s _ => ⟨fun noReset => clockEdge_beforeFirstReset noReset rfl,
    fun reset => ⟨resetEdge (powerUp s), clockEdge_reset reset _, rfl⟩⟩

/-! ### A busy core that holds, then finishes -/

/-- Holding edges only count, so the finishing edge runs the latched command on the state as it was,
that many edges later. -/
theorem runs_hold_then_finish {holds rest : List Edge} {last : Edge} {t : State}
    (reset : s.resetApplied = true) (busy : phase s = .busy) (script : s.script = holds ++ last :: rest)
    (holding : ∀ e ∈ holds, WaitsIn .busy e) (noReset : last.rst = false) (finish : last.pace = .finish)
    (meaning : runLatched (later (holds.length + 1) rest s) = .next t) :
    Runs (holds.length + 1) s [] t := by
  refine .waits holds reset script (busy ▸ holding) ?_
  refine .finish reset busy rfl noReset finish (t := t) ?_ (.nil t)
  rwa [later_later, Nat.add_comm]

/-- Settles O40: the meaning of the latched command always completes, and the finishing edge reaches
exactly its end. -/
theorem everyLatencyCompletesTheCommand : Obligations.EveryLatencyCompletesTheCommand := by
  intro s holds last rest reset busy script holding noReset finish
  obtain ⟨t, meaning, ends⟩ := runLatched_completes (later (holds.length + 1) rest s)
  have runs := runs_hold_then_finish reset busy script holding noReset finish meaning
  exact ⟨t, runs.run, ends.phase_eq, meaning⟩

end Sys2Proof.Proofs.Reset
end

section
/-! PROOFS. The short known-answer vectors of 95_test_vectors.md section 3.3, column by column: the round
keys, the ciphertext under them, and the plaintext again by the round trip. -/

namespace Sys2Proof.Proofs.KnownAnswers

open Sys2Proof Sys2Proof.Machine Sys2Proof.Laws Sys2Proof.Proofs.BlockCipher

/-! ### The round keys -/

/-- The keys of T-2R-2. -/
theorem ks80_of_digits : ks80 0x0123456789ABCDEF0123 2 = [0x0123456789ABCDEF, 0x1024602468ACF135] := by
  decide

/-- The keys of T-2R-3. -/
theorem ks128_of_digits : ks128 0x0123456789ABCDEF0123456789ABCDEF 2 =
    [0x0123456789ABCDEF, 0x1C2468ACF13579BD] := by
  decide

/-- The keys of T-3R-4. -/
theorem ks80_of_ones : ks80 0xFFFFFFFFFFFFFFFFFFFF 3 =
    [0xFFFFFFFFFFFFFFFF, 0x2FFFFFFFFFFFFFFF, 0x1FFFE5FFFFFFFFFE] := by
  decide

/-! ### The vectors -/

/-- T-2R-2: the first key equals the block, so the one round starts from 0. -/
theorem encryptBlock_ks80_of_digits :
    encryptBlock 0x0123456789ABCDEF (ks80 0x0123456789ABCDEF0123 2) = 0xEFDB9FDB68ACF135 := by
  rw [ks80_of_digits]
  decide +kernel

/-- T-2R-3: the round of T-2R-2, with another last key. -/
theorem encryptBlock_ks128_of_digits :
    encryptBlock 0x0123456789ABCDEF (ks128 0x0123456789ABCDEF0123456789ABCDEF 2) =
      0xE3DB9753F13579BD := by
  rw [ks128_of_digits]
  decide +kernel

/-- T-3R-4. -/
theorem encryptBlock_ks80_of_ones :
    encryptBlock 0 (ks80 0xFFFFFFFFFFFFFFFFFFFF 3) = 0x1F0F650F00F0FFFE := by
  rw [ks80_of_ones]
  decide +kernel

/-- R174: an encryption vector under at least one key is a decryption vector read backwards. -/
theorem decryptBlock_of_encryptBlock {p c : Block} {rk : List RoundKey} {r : Nat}
    (rounds : rk.length = r + 1) (vector : encryptBlock p rk = c) : decryptBlock c rk = p :=
  ((encryptBlock_eq_iff (List.ne_nil_of_length_eq_add_one rounds)).1 vector).symm

/-- Settles O31: the ciphertexts are computed, and each decryption follows from the round trip. -/
theorem shortVectorsAgree : Obligations.ShortVectorsAgree :=
  ⟨encryptBlock_ks80_of_digits,
    decryptBlock_of_encryptBlock (ks80_length _ 2) encryptBlock_ks80_of_digits,
    encryptBlock_ks128_of_digits,
    decryptBlock_of_encryptBlock (ks128_length _ 2) encryptBlock_ks128_of_digits,
    encryptBlock_ks80_of_ones,
    decryptBlock_of_encryptBlock (ks80_length _ 3) encryptBlock_ks80_of_ones⟩

end Sys2Proof.Proofs.KnownAnswers
end
